-- ==== Sys2Proof/Word.lean ====
section
/-! DEFINITION. Word.lean: the two word types of the block (00_scope.md R8): 32-bit register-file words and
8-bit bytes, both unsigned. -/

namespace Sys2Proof

/-- `u32`, a register-file word (00_scope.md R8). -/
abbrev Word := BitVec 32

/-- `u8`, a byte of a stream or of the keystream buffer (00_scope.md R8). -/
abbrev Byte := BitVec 8

end Sys2Proof
end

