-- ==== Sys2Proof/Config.lean ====
section
/-! DEFINITION. Config.lean: the parameters of 00_scope.md R6, none of them configurable, and the hardwired
constants of 10_state.md R21. No value of this hardware is left open, so there is no free value here; timing
(parameter `TIMING`) is not modelled (70_reset_and_hazards.md R243, log 11). -/

namespace Sys2Proof.Config

/-- Words in the state array S and in the working buffer W (R6: N_STATE, N_WORK). -/
abbrev nState : Nat := 16

/-- The only accepted key length in bytes (R6: KEY_BYTES). -/
abbrev keyBytes : Nat := 32

/-- The only accepted nonce length in bytes (R6: NONCE_BYTES). -/
abbrev nonceBytes : Nat := 12

/-- Size of the keystream buffer in bytes (R6: BLOCK_BYTES). -/
abbrev blockBytes : Nat := 64

/-- Number of double rounds of the block function (R6: DOUBLE_ROUNDS). -/
abbrev doubleRounds : Nat := 10

/-- S[0..3], hardwired (10_state.md R21). -/
def sConst : Vector Word 4 := #v[0x61707865#32, 0x3320646e#32, 0x79622d32#32, 0x6b206574#32]

/-- Largest cursor value (10_state.md R28: CUR is in 0..64). -/
abbrev curMax : BitVec 7 := 64#7

/-- Largest micro-program counter value (10_state.md R31: UPC is in 0..84). -/
abbrev upcMax : BitVec 7 := 84#7

end Sys2Proof.Config
end

