-- ==== Sys2Proof/Machine/Arith.lean ====
section
/-! DEFINITION. Arith.lean: the arithmetic primitives and the quarter-round function
(41_quarter_round.md R120 to R123). -/

namespace Sys2Proof.Machine

/-- Addition modulo 2^32; the carry is discarded (R120). -/
def add32 (a b : Word) : Word := a + b

/-- Bitwise exclusive-or (R121). -/
def xor32 (a b : Word) : Word := a ^^^ b

/-- Rotation left by `n`, for `n` in 1..31, as the two shifts of R122. -/
def rotl32 (x : Word) (n : Nat) : Word := x <<< n ||| x >>> (32 - n)

/-- The quarter round on four words: the twelve operations of R123 in their order. -/
def qr (a b c d : Word) : Word × Word × Word × Word :=
  let a := add32 a b
  let d := xor32 d a
  let d := rotl32 d 16
  let c := add32 c d
  let b := xor32 b c
  let b := rotl32 b 12
  let a := add32 a b
  let d := xor32 d a
  let d := rotl32 d 8
  let c := add32 c d
  let b := xor32 b c
  let b := rotl32 b 7
  (a, b, c, d)

end Sys2Proof.Machine
end

