-- ==== Sys2Proof/Machine/Bytes.lean ====
section
/-! DEFINITION. Bytes.lean: byte assembly and disassembly (00_scope.md R10, 20_memory.md R54 to R58) and the
extensions of 00_scope.md R11. -/

namespace Sys2Proof.Machine

/-- `le32(b0, b1, b2, b3)`, the least significant byte first (00_scope.md R10). -/
def le32 (b0 b1 b2 b3 : Byte) : Word :=
  b0.zeroExtend 32 ||| b1.zeroExtend 32 <<< 8 ||| b2.zeroExtend 32 <<< 16 ||| b3.zeroExtend 32 <<< 24

/-- `byte_m(w)` = `w[8m+7 : 8m]`, byte 0 the least significant (00_scope.md R10). -/
def byteOf (m : Nat) (w : Word) : Byte := w.extractLsb' (8 * m) 8

/-- The four bytes of a word as they stand on a stream: the first is the least significant (20_memory.md R56). -/
def bytesOf (w : Word) : List Byte := [byteOf 0 w, byteOf 1 w, byteOf 2 w, byteOf 3 w]

/-- Word `i` of a byte string: le32 of its bytes 4i..4i+3 (20_memory.md R54). A byte past the end of the string
reads as zero here; INIT takes words only from strings of the exact length, so none is. -/
def wordAt (bs : List Byte) (i : Nat) : Word :=
  le32 (bs.getD (4 * i) 0) (bs.getD (4 * i + 1) 0) (bs.getD (4 * i + 2) 0) (bs.getD (4 * i + 3) 0)

/-- `zext_N(v)` (00_scope.md R11). -/
def zext (n : Nat) {m : Nat} (v : BitVec m) : BitVec n := v.zeroExtend n

/-- `sext_N(v)` (00_scope.md R11); no rule of this hardware uses it. -/
def sext (n : Nat) {m : Nat} (v : BitVec m) : BitVec n := v.signExtend n

end Sys2Proof.Machine
end

