-- ==== Sys2Proof/Machine/BlockFunction.lean ====
section
/-! DEFINITION. BlockFunction.lean: the block function as a pure function on sixteen words
(42_block_function.md R140, R142 to R145), and the keystream it gives (43_stream_updater.md R181). -/

namespace Sys2Proof.Machine

/-- `(X[a], X[b], X[c], X[d]) <- QR(X[a], X[b], X[c], X[d])`. -/
def qrAt (a b c d : Fin 16) (x : Vector Word 16) : Vector Word 16 :=
  let r := qr x[a] x[b] x[c] x[d]
  (((x.set a r.1).set b r.2.1).set c r.2.2.1).set d r.2.2.2

/-- COLUMNROUND (R142). -/
def columnRound (x : Vector Word 16) : Vector Word 16 :=
  qrAt 3 7 11 15 (qrAt 2 6 10 14 (qrAt 1 5 9 13 (qrAt 0 4 8 12 x)))

/-- DIAGONALROUND (R143). -/
def diagonalRound (x : Vector Word 16) : Vector Word 16 :=
  qrAt 3 4 9 14 (qrAt 2 7 8 13 (qrAt 1 6 11 12 (qrAt 0 5 10 15 x)))

/-- DOUBLEROUND, the column round first (R144). -/
def doubleRound (x : Vector Word 16) : Vector Word 16 := diagonalRound (columnRound x)

/-- `n` double rounds. -/
def rounds : Nat → Vector Word 16 → Vector Word 16
  | 0, x => x
  | n + 1, x => rounds n (doubleRound x)

/-- Word-by-word addition modulo 2^32, the feed-forward of R140 step 4. -/
def feedForward (x s : Vector Word 16) : Vector Word 16 := Vector.ofFn fun i => add32 x[i] s[i]

/-- The sixteen words of BLOCK(S) before serialization: ten double rounds and the feed-forward (R140, R145). -/
def blockWords (s : Vector Word 16) : Vector Word 16 := feedForward (rounds Config.doubleRounds s) s

/-- Byte `j` of the serialization of sixteen words: B[4k+m] = byte_m(X[k]) (R140 step 5). -/
def serialByte (x : Vector Word 16) (j : Fin 64) : Byte :=
  byteOf (j.val % 4) (x[j.val / 4]'(by omega))

/-- BLOCK(S) (R140). -/
def block (s : Vector Word 16) : Vector Byte 64 := Vector.ofFn fun j => serialByte (blockWords s) j

/-- The state words of a key, a counter value and a nonce (10_state.md R20 to R24). -/
def cipherWords (key : Vector Word 8) (ctr : Word) (nonce : Vector Word 3) : Vector Word 16 :=
  #v[Config.sConst[0], Config.sConst[1], Config.sConst[2], Config.sConst[3],
     key[0], key[1], key[2], key[3], key[4], key[5], key[6], key[7],
     ctr, nonce[0], nonce[1], nonce[2]]

/-- The keystream byte at stream offset `k` of the stream that starts at counter `c0` (43_stream_updater.md R181):
byte k mod 64 of BLOCK at counter (c0 + floor(k / 64)) mod 2^32. -/
def keystreamByte (key : Vector Word 8) (nonce : Vector Word 3) (c0 : Word) (k : Nat) : Byte :=
  (block (cipherWords key (c0 + BitVec.ofNat 32 (k / 64)) nonce))[k % 64]'(Nat.mod_lt _ (by decide))

end Sys2Proof.Machine
end

