-- ==== Sys2Proof/Machine/State.lean ====
section
/-! DEFINITION. State.lean: everything the spec gives the machine, as plain data (10_state.md), the state right after
reset (10_state.md R37), and the reasons a step can stop. -/

namespace Sys2Proof.Machine

/-- The keystream buffer KS, the only byte-addressed storage (00_scope.md R12): its written bytes as (address, byte)
pairs, addresses strictly rising and below 64; an unlisted address holds no value (10_state.md R38; log 3). -/
abbrev Memory := List Host.Cell

/-- PHASE, the sequencer phase: four values, all legal (10_state.md R30). -/
inductive Phase where
  /-- 0: waiting for a command header byte. -/
  | ready
  /-- 1: about to test whether data byte BI needs a regeneration first. -/
  | loop
  /-- 2: running the regeneration micro-program. -/
  | regen
  /-- 3: the regeneration for byte BI has completed. -/
  | xfer
  deriving DecidableEq, Repr

/-- The 2-bit value of PHASE (10_state.md R30). -/
def Phase.code : Phase → BitVec 2
  | .ready => 0
  | .loop => 1
  | .regen => 2
  | .xfer => 3

/-- The machine (10_state.md section 1; the streams are 20_memory.md R53). A cell of type `Option` is `none` while it
is UNWRITTEN, which is the value the spec itself gives it at reset (R37, R38; log 1). -/
structure State where
  /-- S[4..11], the key (R22). S[0..3] are hardwired (R21) and stored nowhere. -/
  key : Vector (Option Word) 8
  /-- S[12], the block counter (R23). -/
  ctr : Option Word
  /-- S[13..15], the nonce (R24). -/
  nonce : Vector (Option Word) 3
  /-- W[0..15], the working register file (R26). -/
  w : Vector (Option Word) 16
  /-- KS[0..63], the keystream buffer (R27). -/
  ks : Memory
  /-- CUR, the cursor (R28). -/
  cur : BitVec 7
  /-- INITD, the initialised flag (R29). -/
  initd : Bool
  /-- PHASE (R30). -/
  phase : Phase
  /-- UPC, the micro-program counter (R31). -/
  upc : BitVec 7
  /-- OP, the opcode of the accepted command (R32). -/
  op : Option Byte
  /-- BN, the byte length of the accepted command (R32). -/
  bn : Option Word
  /-- BI, the index of the next data byte (R32). -/
  bi : Option Word
  /-- The command stream: bytes the host has sent and the block has not taken, oldest first (20_memory.md R53). -/
  cmd : List Byte
  /-- Bytes already taken by `Recv()` for the step in progress, oldest first (70_reset_and_hazards.md R230, R240). -/
  rx : List Byte
  /-- The response stream: bytes the block has sent and the host has not taken, oldest first (20_memory.md R53). -/
  rsp : List Byte
  /-- Input: the host takes response bytes at present, so that `Send` need not wait (20_memory.md R65; log 5). -/
  rspReady : Bool
  /-- Input: the platform asserts reset (70_reset_and_hazards.md R230; log 6). -/
  resetLine : Bool
  deriving DecidableEq, Repr

/-- The state right after reset (10_state.md R37). The streams are empty, the host is taking response bytes and reset
is no longer asserted: those three are not the spec's (logs 4, 5, 6). -/
def State.reset : State where
  key := Vector.replicate 8 none
  ctr := none
  nonce := Vector.replicate 3 none
  w := Vector.replicate 16 none
  ks := []
  cur := 0
  initd := false
  phase := .ready
  upc := 0
  op := none
  bn := none
  bi := none
  cmd := []
  rx := []
  rsp := []
  rspReady := true
  resetLine := false

/-- A piece of storage that can be unwritten (10_state.md R37). -/
inductive Storage where
  /-- A word of S[4..15]. -/
  | s
  /-- A word of W. -/
  | w
  /-- A byte of KS. -/
  | ks
  /-- BN or BI, the command context. -/
  | context
  deriving DecidableEq, Repr

/-- The model faults of 60_exceptions.md R209. They are no hardware errors (those are responses, R201): each is a
condition that cannot arise from reset, so stopping on it is SAFE. -/
inductive Fault where
  /-- A read of an unwritten cell. The spec gives it no effect and orders the stop: 10_state.md R38 "A read of one is a
  model fault", 60_exceptions.md R209 "must treat it as a fault, never as a value", 93_implementation_defined.md U3
  "fault"; it is no register left without a reset value (10_state.md R37 states "unwritten"; log 1). Raised by LDW, QR.*, FFADD, SER, CTRINC, XORB, and by the step in
  LOOP, REGEN and XFER where BN or BI is unwritten. Safe. -/
  | unwrittenRead (cell : Storage)
  /-- CUR outside 0..64, raised by the step; CUR above 63 in an XORB, raised by XORB (R209). Safe. -/
  | cursorOutOfRange
  /-- UPC outside 0..84, raised by the step (R209). Safe. -/
  | upcOutOfRange
  /-- BN = 0, or BI not below BN, while a command runs: raised by the step in LOOP, REGEN and XFER, and by XORB
  (R209; BI = BN is 10_state.md R39 INV5 and 43_stream_updater.md R172, log 7). Safe. -/
  | contextOutOfRange
  /-- A reserved micro-op code was reached (30_encoding.md R83), raised by the step. Safe. -/
  | reservedMicroOp (code : Byte)
  deriving DecidableEq, Repr

/-- Why a step has no meaning to give. -/
inductive Refusal where
  /-- An instruction whose meaning is not written yet, rejected by exec's arm. Safe. No arm uses it. -/
  | notModelled (mnemonic : String)
  deriving DecidableEq, Repr

end Sys2Proof.Machine
end

