-- ==== Sys2Proof/Machine/Flags.lean ====
section
/-! DEFINITION. Flags.lean: the block has no condition codes, no carry and no overflow flag (10_state.md R34).
INITD is its only status flag (R29), and the outcome of a command is only the status byte of its response
(60_exceptions.md R201). Both are here. -/

namespace Sys2Proof.Machine

/-- The error kinds (60_exceptions.md R200). -/
inductive ErrorKind where
  /-- DOC0's ValidationError (R202). -/
  | validation
  /-- ENCRYPT or DECRYPT before any successful INIT (R203). -/
  | notInitialized
  /-- Byte 0 of a command is not an assigned opcode (R204). -/
  | illegalCommand
  deriving DecidableEq, Repr

/-- Status OK (60_exceptions.md R201). -/
def statusOk : Byte := 0x00#8

/-- `code(E)`, the status byte of an error (60_exceptions.md R201). -/
def ErrorKind.code : ErrorKind → Byte
  | .validation => 0x01#8
  | .notInitialized => 0x02#8
  | .illegalCommand => 0x03#8

/-- INITD <- 1, by a successful INIT (10_state.md R29). -/
def State.setInitd (s : State) : State := { s with initd := true }

end Sys2Proof.Machine
end

