-- ==== Sys2Proof/Machine/Operands.lean ====
section
/-! DEFINITION. Operands.lean: how an instruction reaches what it reads: a word of S or W, all of S or W, a byte of
KS, the bytes of the streams, and the word groups of the QR micro-ops (00_scope.md R12, R13; 30_encoding.md R80). -/

namespace Sys2Proof.Machine

/-! ## The register files -/

/-- The state register file S: the constants, the key, the counter, the nonce (10_state.md R20 to R24). -/
def State.sFile (s : State) : Vector (Option Word) 16 :=
  #v[some Config.sConst[0], some Config.sConst[1], some Config.sConst[2], some Config.sConst[3],
     s.key[0], s.key[1], s.key[2], s.key[3], s.key[4], s.key[5], s.key[6], s.key[7],
     s.ctr, s.nonce[0], s.nonce[1], s.nonce[2]]

/-- `S[i]`, or nothing where the word is unwritten. -/
def State.readS (s : State) (i : Fin 16) : Option Word := s.sFile[i]

/-- A register file whose every word is written, holding the words `x`. -/
def written {n : Nat} (x : Vector Word n) : Vector (Option Word) n := Vector.ofFn fun i => some x[i]

/-- All the words of a register file, or nothing where one of them is unwritten. -/
def gather {n : Nat} (f : Vector (Option Word) n) : Option (Vector Word n) :=
  if ∀ i : Fin n, (f[i]).isSome then some (Vector.ofFn fun i => (f[i]).getD 0) else none

/-- S[0..15] read in one step, as LDW and FFADD do (10_state.md R25). -/
def State.allS (s : State) : Option (Vector Word 16) := gather s.sFile

/-- W[0..15] read in one step, as FFADD and SER do (10_state.md R26). -/
def State.allW (s : State) : Option (Vector Word 16) := gather s.w

/-! ## The keystream buffer -/

/-- The byte listed for an address. -/
def lookup : Memory → Nat → Option Byte
  | [], _ => none
  | (a, v) :: rest, j => if a = j then some v else lookup rest j

/-- `MemRead(j, 1)`: byte `j` of KS for `j` in 0..63, or nothing where it is unwritten (20_memory.md R51). -/
def memRead (m : Memory) (j : Nat) : Option Byte := if j < Config.blockBytes then lookup m j else none

/-! ## The streams -/

/-- What `Recv()` gives from here on: the bytes already taken for the step in progress, then the command stream. -/
def State.stream (s : State) : List Byte := s.rx ++ s.cmd

/-! ## The groups of the QR micro-ops -/

/-- The index group of a QR micro-op by the formula of 30_encoding.md R80: column (`diag` false) or diagonal,
group `j` in 0..3. -/
def qrGroup (diag : Bool) (j : Nat) : Nat × Nat × Nat × Nat :=
  if diag then (j, 4 + (j + 1) % 4, 8 + (j + 2) % 4, 12 + (j + 3) % 4) else (j, 4 + j, 8 + j, 12 + j)

end Sys2Proof.Machine
end

