-- ==== Sys2Proof/Machine/Ops.lean ====
section
/-! DEFINITION. Ops.lean: the named operations over the state that the meanings share: writing KS, sending, the abort
of 60_exceptions.md R206 (the block's only trap entry), the operations behind the micro-ops, accepting a command, and
what the host and the platform can do from outside. -/

namespace Sys2Proof.Machine

/-- The outcome of a step of this machine. -/
abbrev Result := Host.Outcome State Fault Refusal

/-! ## Writing the keystream buffer -/

/-- `MemWrite(j, 1, v)`, keeping the canonical form (strictly rising addresses). -/
def memWrite : Memory → Nat → Byte → Memory
  | [], j, v => [(j, v)]
  | (a, x) :: rest, j, v =>
    if j < a then (j, v) :: (a, x) :: rest
    else if j = a then (j, v) :: rest
    else (a, x) :: memWrite rest j v

/-- A word written least significant byte first at `a` (20_memory.md R55). -/
def memWriteWord (m : Memory) (a : Nat) (w : Word) : Memory :=
  memWrite (memWrite (memWrite (memWrite m a (byteOf 0 w)) (a + 1) (byteOf 1 w)) (a + 2) (byteOf 2 w)) (a + 3)
    (byteOf 3 w)

/-- Words written one after the other from `a` on. -/
def memWriteWords : Memory → Nat → List Word → Memory
  | m, _, [] => m
  | m, a, w :: ws => memWriteWords (memWriteWord m a w) (a + 4) ws

/-- Serialization of sixteen words into KS (20_memory.md R55, 42_block_function.md R147). -/
def serialize (m : Memory) (x : Vector Word 16) : Memory := memWriteWords m 0 x.toList

/-- The canonical form: addresses strictly rising. -/
def Memory.rising : Memory → Bool
  | [] => true
  | [_] => true
  | a :: b :: rest => decide (a.1 < b.1) && Memory.rising (b :: rest)

/-- KS is well formed: canonical, and every address in 0..63 (20_memory.md R51). -/
def Memory.wf (m : Memory) : Bool := Memory.rising m && m.all fun c => decide (c.1 < Config.blockBytes)

/-! ## The response stream -/

/-- `Send(v)` once the host takes it: the byte joins the response stream (20_memory.md R53). -/
def State.send (v : Byte) (s : State) : State := { s with rsp := s.rsp ++ [v] }

/-- The end of an atomic step that sends one byte: `done` is the state the step leaves, less the byte. While the host
withholds taking, the block waits before the Send and no state changes (20_memory.md R65, 70 R240; log 8). -/
def respond (v : Byte) (waiting done : State) : Result :=
  if waiting.rspReady then .next (done.send v) else .next waiting

/-- The bytes `r` are taken for the step in progress, and `c` is what the command stream still holds. -/
def State.taken (r c : List Byte) (s : State) : State := { s with rx := r, cmd := c }

/-- The command in progress is over: the bytes taken for it are used up. -/
def State.consumed (s : State) : State := { s with rx := [] }

/-! ## The abort: taking an exception (60_exceptions.md R206)

Nothing is saved, since nothing is changed; there is no vector, mode or mask, and no return from it (R207). -/

/-- `raise E()`: the command is rejected with error `e`. No state is written, the status byte of `e` is the whole
response, PHASE stays READY and the next byte is the next command's header. -/
def raise (e : ErrorKind) (s : State) : Result := respond e.code s s.consumed

/-! ## INIT's load (40_init.md R100) -/

/-- The atomic load of a successful INIT: S[4..15], CUR and INITD. -/
def State.loadCipher (key nonce : List Byte) (ctr : Word) (s : State) : State :=
  State.setInitd
    { s with
      key := Vector.ofFn fun i => some (wordAt key i.val)
      ctr := some ctr
      nonce := Vector.ofFn fun i => some (wordAt nonce i.val)
      cur := 0 }

/-! ## Accepting and rejecting a format-CX command (43_stream_updater.md R170, R171) -/

/-- The payload of a command rejected with NOT_INITIALIZED: its `n` data bytes are consumed and discarded before the
abort (60_exceptions.md R203, R206); while some have not arrived, the block waits in `Recv()`. -/
def discardThenRaise (n : Nat) (e : ErrorKind) (s : State) : Result :=
  if s.cmd.length < n then .next (s.taken (s.rx ++ s.cmd) [])
  else raise e (s.taken (s.rx ++ s.cmd.take n) (s.cmd.drop n))

/-- The command context at acceptance: OP, BN, BI and PHASE <- LOOP. -/
def State.accept (opcode : Byte) (n : Word) (s : State) : State :=
  { s with op := some opcode, bn := some n, bi := some 0, phase := .loop }

/-- ENCRYPT and DECRYPT up to the byte loop: NOT_INITIALIZED first, then VALIDATION_ERROR for n = 0 (R205), else
acceptance with status OK. -/
def streamCommand (opcode : Byte) (n : Word) (s : State) : Result :=
  if s.initd = false then discardThenRaise n.toNat .notInitialized s
  else if n = 0 then raise .validation s
  else respond statusOk s (s.accept opcode n).consumed

/-! ## The micro-ops -/

/-- `upc <- upc + 1` (42_block_function.md R149). -/
def State.upcNext (s : State) : State := { s with upc := s.upc + 1 }

/-- The end of REGEN, after the micro-op at UPC 84: PHASE <- XFER, UPC <- 0 (42_block_function.md R149). -/
def State.regenEnd (s : State) : State := { s with phase := .xfer, upc := 0 }

/-- The entry of REGEN, from LOOP: PHASE <- REGEN, UPC <- 0 (42_block_function.md R149). -/
def State.regenStart (s : State) : State := { s with phase := .regen, upc := 0 }

/-- W written whole. -/
def State.writeW (f : Vector (Option Word) 16) (s : State) : State := { s with w := f }

/-- KS written. -/
def State.writeKs (m : Memory) (s : State) : State := { s with ks := m }

/-- S[12] written (43_stream_updater.md R174). -/
def State.writeCtr (c : Word) (s : State) : State := { s with ctr := some c }

/-- CUR <- 0 (43_stream_updater.md R175). -/
def State.clearCur (s : State) : State := { s with cur := 0 }

/-- `(W[a], W[b], W[c], W[d]) <- r`. -/
def setFour (f : Vector (Option Word) 16) (a b c d : Fin 16) (r : Word × Word × Word × Word) :
    Vector (Option Word) 16 :=
  (((f.set a (some r.1)).set b (some r.2.1)).set c (some r.2.2.1)).set d (some r.2.2.2)

/-- A QR micro-op on the group (a, b, c, d) (41_quarter_round.md R124): it reads these four words of W and writes
these four. Where one of them is unwritten: the model fault that the spec demands (10_state.md R38, 60_exceptions.md
R209, 93_implementation_defined.md U3). -/
def qrMicro (a b c d : Fin 16) (s : State) : Result :=
  match s.w[a], s.w[b], s.w[c], s.w[d] with
  | some wa, some wb, some wc, some wd => .next (s.writeW (setFour s.w a b c d (qr wa wb wc wd))).upcNext
  | _, _, _, _ => .fault (.unwrittenRead .w)

/-- The command context (BN, BI) while a command runs: written, BN not 0, BI below BN; else the model faults of
60_exceptions.md R209: an unwritten BN or BI (10_state.md R38), or BI not below BN (log 7). -/
def State.context (s : State) : Except Fault (Word × Word) :=
  match s.bn, s.bi with
  | some n, some i => if i < n then .ok (n, i) else .error .contextOutOfRange
  | _, _ => .error (.unwrittenRead .context)

/-- The state after an XORB (43_stream_updater.md R176) of a command of length `n` at index `i`, less the byte it
sends; `rest` is what the command stream still holds. -/
def State.xorbDone (n i : Word) (rest : List Byte) (s : State) : State :=
  { s with
    rx := []
    cmd := rest
    cur := s.cur + 1
    bi := some (i + 1)
    phase := if i + 1 = n then .ready else .loop }

/-! ## The host and the platform, from outside (20_memory.md R64, 70_reset_and_hazards.md R230) -/

/-- The host sends bytes on the command stream. -/
def State.hostSend (bs : List Byte) (s : State) : State := { s with cmd := s.cmd ++ bs }

/-- The host takes the first `k` bytes of the response stream. -/
def State.hostTake (k : Nat) (s : State) : State := { s with rsp := s.rsp.drop k }

/-- The host starts, or stops, taking response bytes. -/
def State.hostReady (b : Bool) (s : State) : State := { s with rspReady := b }

/-- The platform asserts reset. -/
def State.assertReset (s : State) : State := { s with resetLine := true }

/-- The reset event (70_reset_and_hazards.md R230 to R232): every element of 10_state.md R37 at its reset value; the
bytes taken for a command in progress are lost, those not yet taken remain, and what was sent stays sent. -/
def State.resetEvent (s : State) : State :=
  { State.reset with cmd := s.cmd, rsp := s.rsp, rspReady := s.rspReady }

end Sys2Proof.Machine
end

