-- ==== Sys2Proof/Machine/Block.lean ====
section
/-! DEFINITION. Block.lean: the meanings of LDW, FFADD and SER (42_block_function.md R141, R146, R147). -/

namespace Sys2Proof.Machine

/-- LDW (R141): W <- S, all sixteen words in one step. Where a word of S is unwritten: the model fault that the spec demands (10_state.md R38,
60_exceptions.md R209, 93_implementation_defined.md U3). -/
def execLdw (s : State) : Result :=
  match s.allS with
  | some x => .next (s.writeW (written x)).upcNext
  | none => .fault (.unwrittenRead .s)

/-- FFADD (R146): W[i] <- add32(W[i], S[i]), all sixteen words in one step. Where a word of W or S is unwritten: the model
fault that the spec demands (10_state.md R38, 60_exceptions.md R209, 93_implementation_defined.md U3). -/
def execFfadd (s : State) : Result :=
  match s.allW, s.allS with
  | some x, some y => .next (s.writeW (written (feedForward x y))).upcNext
  | none, _ => .fault (.unwrittenRead .w)
  | some _, none => .fault (.unwrittenRead .s)

/-- SER (R147): KS[4k+m] <- byte_m(W[k]), all 64 bytes in one step. Where a word of W is unwritten: the model fault that
the spec demands (10_state.md R38, 60_exceptions.md R209, 93_implementation_defined.md U3). -/
def execSer (s : State) : Result :=
  match s.allW with
  | some x => .next (s.writeKs (serialize s.ks x)).upcNext
  | none => .fault (.unwrittenRead .w)

end Sys2Proof.Machine
end

