-- ==== Sys2Proof/Machine/Init.lean ====
section
/-! DEFINITION. Init.lean: the meaning of INIT (40_init.md R100 to R103). -/

namespace Sys2Proof.Machine

/-- INIT (R100): the lengths are validated before any state is written; a wrong one is a VALIDATION_ERROR, else the
load of S[4..15], CUR and INITD is one atomic step that sends status OK. W and KS keep their contents (R101). -/
def execInit (key nonce : List Byte) (ctr : Word) (s : State) : Result :=
  if key.length ≠ Config.keyBytes ∨ nonce.length ≠ Config.nonceBytes then raise .validation s
  else respond statusOk s (s.loadCipher key nonce ctr).consumed

end Sys2Proof.Machine
end

