-- ==== Sys2Proof/Machine/Mixer.lean ====
section
/-! DEFINITION. Mixer.lean: the meanings of the eight QR micro-ops (41_quarter_round.md R124 to R132). -/

namespace Sys2Proof.Machine

/-- QR.C0 (R125). -/
def execQrC0 (s : State) : Result := qrMicro 0 4 8 12 s

/-- QR.C1 (R126). -/
def execQrC1 (s : State) : Result := qrMicro 1 5 9 13 s

/-- QR.C2 (R127). -/
def execQrC2 (s : State) : Result := qrMicro 2 6 10 14 s

/-- QR.C3 (R128). -/
def execQrC3 (s : State) : Result := qrMicro 3 7 11 15 s

/-- QR.D0 (R129). -/
def execQrD0 (s : State) : Result := qrMicro 0 5 10 15 s

/-- QR.D1 (R130). -/
def execQrD1 (s : State) : Result := qrMicro 1 6 11 12 s

/-- QR.D2 (R131). -/
def execQrD2 (s : State) : Result := qrMicro 2 7 8 13 s

/-- QR.D3 (R132). -/
def execQrD3 (s : State) : Result := qrMicro 3 4 9 14 s

end Sys2Proof.Machine
end

