-- ==== Sys2Proof/Machine/Stream.lean ====
section
/-! DEFINITION. Stream.lean: the meanings of ENCRYPT, DECRYPT, CTRINC, CURCLR and XORB
(43_stream_updater.md R170, R171, R174 to R176). -/

namespace Sys2Proof.Machine

/-- ENCRYPT (R170), up to the byte loop that PHASE LOOP then runs. -/
def execEncrypt (n : Word) (s : State) : Result := streamCommand 0x02#8 n s

/-- DECRYPT (R171): as ENCRYPT but for the opcode that OP records. -/
def execDecrypt (n : Word) (s : State) : Result := streamCommand 0x03#8 n s

/-- CTRINC (R174): S[12] <- add32(S[12], 1), wrapping silently (R179). Where S[12] is unwritten: the
model fault that the spec demands (10_state.md R38, 60_exceptions.md R209, 93_implementation_defined.md U3). -/
def execCtrinc (s : State) : Result :=
  match s.ctr with
  | some c => .next (s.writeCtr (add32 c 1)).upcNext
  | none => .fault (.unwrittenRead .s)

/-- CURCLR (R175): CUR <- 0, and the sequencer leaves REGEN for XFER (42_block_function.md R149). -/
def execCurclr (s : State) : Result := .next s.clearCur.regenEnd

/-- XORB (R176): one data byte is received, XORed with KS[CUR] and sent; CUR and BI advance; the command is complete
when BI reaches BN. It waits in `Recv()` for the byte and before `Send` for the host (20_memory.md R65); a byte taken
while the block waits to send stays taken. Where KS[CUR], BN or BI is unwritten, or CUR or BI is out of its range: the
model faults that the spec demands (10_state.md R38, 60_exceptions.md R209, 93_implementation_defined.md U3, U5). -/
def execXorb (s : State) : Result :=
  match s.context with
  | .error f => .fault f
  | .ok (n, i) =>
    if 63#7 < s.cur then .fault .cursorOutOfRange
    else
      match s.stream with
      | [] => .next s
      | d :: rest =>
        match memRead s.ks s.cur.toNat with
        | none => .fault (.unwrittenRead .ks)
        | some k => respond (d ^^^ k) (s.taken [d] rest) (s.xorbDone n i rest)

end Sys2Proof.Machine
end

