-- ==== Sys2Proof/Syntax.lean ====
section
/-! DEFINITION. Syntax.lean: the instructions, one constructor per row of spec/opcode_table.json
(30_encoding.md R77 and R81). -/

namespace Sys2Proof

/-- The three commands of the command stream (30_encoding.md R77) and the fourteen micro-ops of the sequencer
(30_encoding.md R81). A command carries the operands its header gives: the key and nonce byte strings have the
lengths `klen` and `nlen` of format CI (R72, R74); the data bytes of format CX are not operands that the decoder
holds, since XORB takes them from the stream one at a time (R75; log 10). -/
inductive Instr where
  /-- INIT, opcode 0x01 (40_init.md R100). -/
  | init (key nonce : List Byte) (ctr : Word)
  /-- ENCRYPT, opcode 0x02, of `n` data bytes (43_stream_updater.md R170). -/
  | encrypt (n : Word)
  /-- DECRYPT, opcode 0x03, of `n` data bytes (43_stream_updater.md R171). -/
  | decrypt (n : Word)
  /-- LDW, code 0x00 (42_block_function.md R141). -/
  | ldw
  /-- QR.C0, code 0x10 (41_quarter_round.md R125). -/
  | qrC0
  /-- QR.C1, code 0x11 (41_quarter_round.md R126). -/
  | qrC1
  /-- QR.C2, code 0x12 (41_quarter_round.md R127). -/
  | qrC2
  /-- QR.C3, code 0x13 (41_quarter_round.md R128). -/
  | qrC3
  /-- QR.D0, code 0x14 (41_quarter_round.md R129). -/
  | qrD0
  /-- QR.D1, code 0x15 (41_quarter_round.md R130). -/
  | qrD1
  /-- QR.D2, code 0x16 (41_quarter_round.md R131). -/
  | qrD2
  /-- QR.D3, code 0x17 (41_quarter_round.md R132). -/
  | qrD3
  /-- FFADD, code 0x20 (42_block_function.md R146). -/
  | ffadd
  /-- SER, code 0x30 (42_block_function.md R147). -/
  | ser
  /-- CTRINC, code 0x40 (43_stream_updater.md R174). -/
  | ctrinc
  /-- CURCLR, code 0x50 (43_stream_updater.md R175). -/
  | curclr
  /-- XORB, code 0x60 (43_stream_updater.md R176). -/
  | xorb
  deriving DecidableEq, Repr

end Sys2Proof
end

