-- ==== Sys2Proof/Machine/Dispatch.lean ====
section
/-! DEFINITION. Dispatch.lean: one arm per constructor of Instr, each a direct call of its meaning. It does not check the
position: the step calls it only where the spec says the instruction runs (log 2). -/

namespace Sys2Proof.Machine

def exec (i : Instr) (s : State) : Host.Outcome State Fault Refusal :=
  match i with
  | .init key nonce ctr => Sys2Proof.Machine.execInit key nonce ctr s
  | .encrypt n => Sys2Proof.Machine.execEncrypt n s
  | .decrypt n => Sys2Proof.Machine.execDecrypt n s
  | .ldw => Sys2Proof.Machine.execLdw s
  | .qrC0 => Sys2Proof.Machine.execQrC0 s
  | .qrC1 => Sys2Proof.Machine.execQrC1 s
  | .qrC2 => Sys2Proof.Machine.execQrC2 s
  | .qrC3 => Sys2Proof.Machine.execQrC3 s
  | .qrD0 => Sys2Proof.Machine.execQrD0 s
  | .qrD1 => Sys2Proof.Machine.execQrD1 s
  | .qrD2 => Sys2Proof.Machine.execQrD2 s
  | .qrD3 => Sys2Proof.Machine.execQrD3 s
  | .ffadd => Sys2Proof.Machine.execFfadd s
  | .ser => Sys2Proof.Machine.execSer s
  | .ctrinc => Sys2Proof.Machine.execCtrinc s
  | .curclr => Sys2Proof.Machine.execCurclr s
  | .xorb => Sys2Proof.Machine.execXorb s

end Sys2Proof.Machine
end

