-- ==== Sys2Proof/WellFormed.lean ====
section
/-! DEFINITION. WellFormed.lean: which instructions have an encoding. -/

namespace Sys2Proof

/-- `klen` and `nlen` are 8-bit fields (30_encoding.md R72), so an encodable INIT has at most 255 key bytes and at
most 255 nonce bytes; every other instruction is encodable whatever its operands (R84: no reserved field). Which
lengths are ACCEPTED is not asked here: INIT itself validates them (60_exceptions.md R202). -/
def Instr.wf : Instr → Bool
  | .init key nonce _ => decide (key.length ≤ 255) && decide (nonce.length ≤ 255)
  | .encrypt _ => true
  | .decrypt _ => true
  | .ldw => true
  | .qrC0 => true
  | .qrC1 => true
  | .qrC2 => true
  | .qrC3 => true
  | .qrD0 => true
  | .qrD1 => true
  | .qrD2 => true
  | .qrD3 => true
  | .ffadd => true
  | .ser => true
  | .ctrinc => true
  | .curclr => true
  | .xorb => true

/-- The commands are what the host can send; the other constructors are micro-ops, which it cannot
(30_encoding.md R70). -/
def Instr.isCommand : Instr → Bool
  | .init _ _ _ => true
  | .encrypt _ => true
  | .decrypt _ => true
  | .ldw => false
  | .qrC0 => false
  | .qrC1 => false
  | .qrC2 => false
  | .qrC3 => false
  | .qrD0 => false
  | .qrD1 => false
  | .qrD2 => false
  | .qrD3 => false
  | .ffadd => false
  | .ser => false
  | .ctrinc => false
  | .curclr => false
  | .xorb => false

end Sys2Proof
end

