-- ==== Sys2Proof/Decode.lean ====
section
/-! DEFINITION. Decode.lean: the two decoders of 30_encoding.md R70 (commands on the command stream, micro-ops from
the ROM), total on any bytes and rejecting by name, and the encoder written from the same tables. -/

namespace Sys2Proof

open Sys2Proof.Machine (le32 bytesOf)

/-! ## Micro-ops, format U8 (R80, R81) -/

/-- What one micro-op code reads as. -/
inductive MicroRead where
  /-- An assigned code of R81. -/
  | op (i : Instr)
  /-- A reserved code (R83). -/
  | reserved (code : Byte)
  deriving DecidableEq, Repr

/-- The QR micro-op of argument `arg` (R80): arg[3] must be 0, arg[2] selects the round type, arg[1:0] the group. -/
def decodeQr (arg : BitVec 4) : Option Instr :=
  if arg.getLsbD 3 then none
  else
    match arg.getLsbD 2, arg.getLsbD 1, arg.getLsbD 0 with
    | false, false, false => some .qrC0
    | false, false, true => some .qrC1
    | false, true, false => some .qrC2
    | false, true, true => some .qrC3
    | true, false, false => some .qrD0
    | true, false, true => some .qrD1
    | true, true, false => some .qrD2
    | true, true, true => some .qrD3

/-- A micro-op code, split into `cls` (bits 7:4) and `arg` (bits 3:0) (R80, R81, R83). -/
def decodeMicro (code : Byte) : MicroRead :=
  let cls := (code.extractLsb' 4 4).toNat
  let arg := code.extractLsb' 0 4
  let plain (i : Instr) : Option Instr := if arg = 0 then some i else none
  let found : Option Instr :=
    if cls = 0 then plain .ldw
    else if cls = 1 then decodeQr arg
    else if cls = 2 then plain .ffadd
    else if cls = 3 then plain .ser
    else if cls = 4 then plain .ctrinc
    else if cls = 5 then plain .curclr
    else if cls = 6 then plain .xorb
    else none
  match found with
  | some i => .op i
  | none => .reserved code

/-! ## Commands, formats CI and CX (R71 to R77) -/

/-- What a string of command-stream bytes reads as, from its first byte on. -/
inductive CommandRead where
  /-- The bytes so far do not yet hold what the decoder has to take: it waits in `Recv()` (20_memory.md R65). -/
  | incomplete
  /-- Byte 0 is no assigned opcode (60_exceptions.md R204); the command is that one byte. -/
  | illegal (op : Byte)
  /-- A command, and how many bytes the decoder took for it: a whole format CI, the five header bytes of format CX. -/
  | complete (i : Instr) (len : Nat)
  deriving DecidableEq, Repr

/-- Format CI after its opcode byte (R72, R74). -/
def decodeInit : List Byte → CommandRead
  | klen :: nlen :: body =>
    let k := klen.toNat
    let n := nlen.toNat
    match body.drop (k + n) with
    | c0 :: c1 :: c2 :: c3 :: _ =>
      .complete (.init (body.take k) ((body.drop k).take n) (le32 c0 c1 c2 c3)) (7 + k + n)
    | _ => .incomplete
  | _ => .incomplete

/-- The header of format CX after its opcode byte (R73, R75); `mk` is the command the opcode names. -/
def decodeCx (mk : Word → Instr) : List Byte → CommandRead
  | l0 :: l1 :: l2 :: l3 :: _ => .complete (mk (le32 l0 l1 l2 l3)) 5
  | _ => .incomplete

/-- The command decoder (R71, R76, R77). -/
def decodeCommand : List Byte → CommandRead
  | [] => .incomplete
  | op :: bs =>
    if op = 0x01#8 then decodeInit bs
    else if op = 0x02#8 then decodeCx .encrypt bs
    else if op = 0x03#8 then decodeCx .decrypt bs
    else .illegal op

/-! ## The encoder (R72, R73, R81) -/

/-- The opcode or micro-op code of an instruction (R77, R81). -/
def Instr.code : Instr → Byte
  | .init _ _ _ => 0x01#8
  | .encrypt _ => 0x02#8
  | .decrypt _ => 0x03#8
  | .ldw => 0x00#8
  | .qrC0 => 0x10#8
  | .qrC1 => 0x11#8
  | .qrC2 => 0x12#8
  | .qrC3 => 0x13#8
  | .qrD0 => 0x14#8
  | .qrD1 => 0x15#8
  | .qrD2 => 0x16#8
  | .qrD3 => 0x17#8
  | .ffadd => 0x20#8
  | .ser => 0x30#8
  | .ctrinc => 0x40#8
  | .curclr => 0x50#8
  | .xorb => 0x60#8

/-- The bytes of an instruction after its code: the rest of format CI, the length of format CX, nothing for a
micro-op. -/
def Instr.operandBytes : Instr → List Byte
  | .init key nonce ctr =>
    BitVec.ofNat 8 key.length :: BitVec.ofNat 8 nonce.length :: (key ++ nonce ++ bytesOf ctr)
  | .encrypt n => bytesOf n
  | .decrypt n => bytesOf n
  | .ldw => []
  | .qrC0 => []
  | .qrC1 => []
  | .qrC2 => []
  | .qrC3 => []
  | .qrD0 => []
  | .qrD1 => []
  | .qrD2 => []
  | .qrD3 => []
  | .ffadd => []
  | .ser => []
  | .ctrinc => []
  | .curclr => []
  | .xorb => []

/-- The bytes of a well-formed instruction: of an ENCRYPT or DECRYPT, those of its header, which its data bytes
follow. -/
def encode (i : Instr) : List Byte := i.code :: i.operandBytes

/-- The whole length in bytes of the command an instruction heads (R76); 1 for a micro-op (R80). -/
def Instr.totalLength : Instr → Nat
  | .init key nonce _ => 7 + key.length + nonce.length
  | .encrypt n => 5 + n.toNat
  | .decrypt n => 5 + n.toNat
  | .ldw => 1
  | .qrC0 => 1
  | .qrC1 => 1
  | .qrC2 => 1
  | .qrC3 => 1
  | .qrD0 => 1
  | .qrD1 => 1
  | .qrD2 => 1
  | .qrD3 => 1
  | .ffadd => 1
  | .ser => 1
  | .ctrinc => 1
  | .curclr => 1
  | .xorb => 1

/-! ## The opcode table's numbering of bits -/

/-- The decoder of a table row: the two sets of R70 share no code, so byte 0 tells which one reads the bytes. Also
how many bytes the instruction takes. -/
def decodeTableBytes : List Byte → Option (Instr × Nat)
  | [] => none
  | b :: bs =>
    match decodeMicro b with
    | .op i => some (i, 1)
    | .reserved _ =>
      match decodeCommand (b :: bs) with
      | .complete i len => some (i, len)
      | .incomplete => none
      | .illegal _ => none

/-- The bytes of a table word: byte `j` is its bits 8j+7..8j (the first byte is the first on the stream), then zeros
up to the longest instruction, an INIT of 7 + 255 + 255 bytes. -/
def tableBytes (nbits w : Nat) : List Byte :=
  (List.range (nbits / 8)).map (fun j => BitVec.ofNat 8 (w >>> (8 * j))) ++ List.replicate 517 0#8

/-- The instruction the decoder reads from a table word. -/
def decodeTableWord (nbits w : Nat) : Option Instr := (decodeTableBytes (tableBytes nbits w)).map Prod.fst

end Sys2Proof
end

