-- ==== Sys2Proof/Machine/Sequencer.lean ====
section
/-! DEFINITION. Sequencer.lean: the micro-program ROM (30_encoding.md R82) and what the sequencer does next in each
phase (10_state.md R30, R33): READY decodes a command, LOOP tests for a regeneration, REGEN runs ROM[UPC], XFER runs
XORB. Step.lean only calls it. -/

namespace Sys2Proof.Machine

/-! ## The micro-program -/

/-- The eight QR codes of one double round. -/
def romDoubleRound : List Byte := [0x10#8, 0x11#8, 0x12#8, 0x13#8, 0x14#8, 0x15#8, 0x16#8, 0x17#8]

/-- The eight QR codes, `n` times. -/
def romRounds : Nat → List Byte
  | 0 => []
  | n + 1 => romDoubleRound ++ romRounds n

/-- The regeneration micro-program, 85 codes: LDW, ten double rounds, FFADD, SER, CTRINC, CURCLR (R82). -/
def rom : List Byte := [0x00#8] ++ romRounds Config.doubleRounds ++ [0x20#8, 0x30#8, 0x40#8, 0x50#8]

/-! ## What a step does -/

/-- What the sequencer does next. -/
inductive Action where
  /-- It executes an instruction, from the state the fetch leaves. -/
  | run (i : Instr) (s : State)
  /-- It does something that is no instruction of the table, with this outcome. -/
  | done (r : Result)

/-- The model faults of 60_exceptions.md R209 that the position and the cursor can show: CUR outside 0..64, UPC
outside 0..84, and, while a command runs, an unwritten or impossible command context (logs 7, 12). -/
def State.controlFault (s : State) : Option Fault :=
  if Config.curMax < s.cur then some .cursorOutOfRange
  else if Config.upcMax < s.upc then some .upcOutOfRange
  else if s.phase = .ready then none
  else
    match s.context with
    | .ok _ => none
    | .error f => some f

/-- The first `len` bytes of the stream are taken for the command in progress. -/
def State.take (len : Nat) (s : State) : State := s.taken (s.stream.take len) (s.stream.drop len)

/-- PHASE READY: decode the next command (R33). Bytes that have arrived are taken; where they are not yet enough the
block waits (70_reset_and_hazards.md R240), and an unassigned opcode is rejected with ILLEGAL_COMMAND
(60_exceptions.md R204). -/
def readyAction (s : State) : Action :=
  match decodeCommand s.stream with
  | .incomplete => .done (.next (s.take s.stream.length))
  | .illegal _ => .done (raise .illegalCommand (s.take 1))
  | .complete i len => .run i (s.take len)

/-- PHASE LOOP: the regeneration test for byte BI (43_stream_updater.md R172). -/
def loopAction (s : State) : Action :=
  if s.cur = 0 ∨ s.cur = Config.curMax then .done (.next s.regenStart) else .run .xorb s

/-- PHASE REGEN: the micro-op ROM[UPC] (42_block_function.md R149). -/
def regenAction (s : State) : Action :=
  match rom[s.upc.toNat]? with
  | none => .done (.fault .upcOutOfRange)
  | some code =>
    match decodeMicro code with
    | .op i => .run i s
    | .reserved c => .done (.fault (.reservedMicroOp c))

/-- The next action of the sequencer. Reset takes precedence over everything (60_exceptions.md R205). -/
def nextAction (s : State) : Action :=
  if s.resetLine then .done (.next s.resetEvent)
  else
    match s.controlFault with
    | some f => .done (.fault f)
    | none =>
      match s.phase with
      | .ready => readyAction s
      | .loop => loopAction s
      | .regen => regenAction s
      | .xfer => .run .xorb s

/-! ## Placing an instruction where the next step takes it (log 9) -/

/-- An unwritten cell filled with zero, a written one as it is. -/
def fillCell (c : Option Word) : Option Word := some (c.getD 0)

/-- KS with its unwritten bytes below `n` filled with zero. -/
def fillKs : Nat → Memory → Memory
  | 0, m => m
  | n + 1, m => fillKs n (if (memRead m n).isSome then m else memWrite m n 0)

/-- The command context that a running micro-op needs: the one held if it is legal, else an ENCRYPT of one byte. -/
def State.placeContext (s : State) : State :=
  match s.context with
  | .ok _ => s
  | .error _ => { s with op := some 0x02#8, bn := some 1, bi := some 0 }

/-- What the spec says holds whenever the sequencer issues a micro-op: an INIT has succeeded, a command was accepted,
and the cells it reads were written before it (10_state.md R39 INV3 to INV7). Cells that are written, and a legal
context, stay as they are. -/
def State.placeOperands (s : State) : State :=
  State.placeContext
    { s with
      initd := true
      key := Vector.ofFn fun i => fillCell s.key[i]
      ctr := fillCell s.ctr
      nonce := Vector.ofFn fun i => fillCell s.nonce[i]
      w := Vector.ofFn fun i => fillCell s.w[i]
      ks := fillKs Config.blockBytes s.ks }

/-- The least UPC at which the ROM holds a code, searched from `u` on. -/
def romIndex (code : Byte) : List Byte → Nat → Option Nat
  | [], _ => none
  | c :: cs, u => if c = code then some u else romIndex code cs (u + 1)

/-- A micro-op made the next one: one of the ROM at its first place in REGEN, XORB in XFER (where CUR is 0 and a data
byte, 0 where the host has sent none, waits). -/
def placeMicro (code : Byte) (s : State) : State :=
  match romIndex code rom 0 with
  | some u => { s.placeOperands with phase := .regen, upc := BitVec.ofNat 7 u }
  | none =>
    { s.placeOperands with
      phase := .xfer
      upc := 0
      cur := 0
      rx := []
      cmd := if s.cmd = [] then [0] else s.cmd }

/-- Command bytes made the next ones that READY decodes. -/
def placeCommand (bs : List Byte) (s : State) : State :=
  { s with phase := .ready, upc := 0, rx := [], cmd := bs ++ s.cmd }

/-- The instruction of a table word made the very next one. A micro-op code goes to the sequencer; anything else to
the head of the command stream, in the length its decoder takes (one byte where it is no command). -/
def placeWord (nbits w : Nat) (s : State) : State :=
  match decodeTableBytes (tableBytes nbits w) with
  | none => placeCommand ((tableBytes nbits w).take 1) s
  | some (i, len) =>
    if i.isCommand then placeCommand ((tableBytes nbits w).take len) s else placeMicro i.code s

end Sys2Proof.Machine
end

