-- ==== Sys2Proof/Machine/Step.lean ====
section
/-! DEFINITION. Step.lean: one step of the machine: what the sequencer does next, an instruction being run by exec;
and the placing of an instruction where the next step takes it. -/

namespace Sys2Proof.Machine

/-- One step: untimed (70_reset_and_hazards.md R243), one atomic transition (20_memory.md R61). -/
def step (s : State) : Host.Outcome State Fault Refusal :=
  match nextAction s with
  | .run i s' => exec i s'
  | .done r => r

/-- `s` with the instruction of a table word placed where the next step takes it (log 9). -/
def State.withFetchWord (s : State) (nbits w : Nat) : State := placeWord nbits w s

end Sys2Proof.Machine
end

