-- ==== Sys2Proof/Machine/Assembler.lean ====
section
/-! DEFINITION. Assembler.lean: the notation for command streams of 30_encoding.md R85, with the pseudo-instructions
of R86, and the listing names of R87. It is the host's side: the block itself sees bytes only (log 13). -/

namespace Sys2Proof.Machine

/-- One assembler line (R85, R86). -/
inductive Line where
  /-- `INIT key=<hex>, nonce=<hex>, ctr=<u32>`. -/
  | init (key nonce : List Byte) (ctr : Word)
  /-- The pseudo-instruction `INIT0 key=<hex>, nonce=<hex>`. -/
  | init0 (key nonce : List Byte)
  /-- `ENCRYPT <hex>`. -/
  | encrypt (data : List Byte)
  /-- `DECRYPT <hex>`. -/
  | decrypt (data : List Byte)
  /-- The pseudo-instruction `SKIP <n>`. -/
  | skip (n : Nat)
  /-- `.byte <hex>`, raw bytes. -/
  | raw (bytes : List Byte)
  deriving DecidableEq, Repr

/-- A whole ENCRYPT (or, with `dec`, DECRYPT) command: format CX's header and the data bytes (R73, R85). -/
def cxCommand (dec : Bool) (data : List Byte) : List Byte :=
  encode (if dec then .decrypt (BitVec.ofNat 32 data.length) else .encrypt (BitVec.ofNat 32 data.length)) ++ data

/-- The expansion of the pseudo-instructions (R86): INIT0 is INIT with counter 0, SKIP n is ENCRYPT of n zero
bytes. -/
def Line.expand : Line → Line
  | .init0 key nonce => .init key nonce 0
  | .skip n => .encrypt (List.replicate n 0)
  | .init key nonce ctr => .init key nonce ctr
  | .encrypt data => .encrypt data
  | .decrypt data => .decrypt data
  | .raw bytes => .raw bytes

/-- A format-CX line, where its length fits the field `n` (R73). -/
def assembleCx (dec : Bool) (data : List Byte) : Option (List Byte) :=
  if data.length < 2 ^ 32 then some (cxCommand dec data) else none

/-- A format-CI line, where its lengths fit the fields `klen` and `nlen` (R72). -/
def assembleCi (key nonce : List Byte) (ctr : Word) : Option (List Byte) :=
  if (Instr.init key nonce ctr).wf then some (encode (.init key nonce ctr)) else none

/-- The bytes of a line; nothing where an operand does not fit its field, or for SKIP 0 (R86: n ≥ 1). -/
def Line.assemble : Line → Option (List Byte)
  | .init key nonce ctr => assembleCi key nonce ctr
  | .init0 key nonce => assembleCi key nonce 0
  | .encrypt data => assembleCx false data
  | .decrypt data => assembleCx true data
  | .skip n => if n = 0 then none else assembleCx false (List.replicate n 0)
  | .raw bytes => some bytes

/-! ## Reading a line (R85)

Where R85 leaves the form of the text open, the model chooses (DESIGN CHOICE, log 13); each choice is named beside the
definition that makes it. -/

/-- A hexadecimal digit, small or capital (DESIGN CHOICE, log 13). -/
def hexDigit (c : Char) : Option Nat :=
  let n := c.toNat
  if 48 ≤ n ∧ n ≤ 57 then some (n - 48)
  else if 97 ≤ n ∧ n ≤ 102 then some (n - 87)
  else if 65 ≤ n ∧ n ≤ 70 then some (n - 55)
  else none

/-- A byte string: two hex digits per byte, byte 0 first (00_scope.md R14). -/
def hexBytes : List Char → Option (List Byte)
  | [] => some []
  | [_] => none
  | h :: l :: rest =>
    match hexDigit h, hexDigit l, hexBytes rest with
    | some x, some y, some bs => some (BitVec.ofNat 8 (16 * x + y) :: bs)
    | _, _, _ => none

/-- Digits in a base of at most 16, after the value read so far. -/
def digits (base : Nat) : Nat → List Char → Option Nat
  | acc, [] => some acc
  | acc, c :: cs =>
    match hexDigit c with
    | some d => if d < base then digits base (base * acc + d) cs else none
    | none => none

/-- A natural number, decimal or `0x` hexadecimal; R85 gives both forms for `ctr`, and taking both for SKIP's count is a
DESIGN CHOICE (log 13). -/
def readNat : List Char → Option Nat
  | [] => none
  | ['0', 'x'] => none
  | '0' :: 'x' :: cs => digits 16 0 cs
  | cs => digits 10 0 cs

/-- A `u32`, decimal or `0x` hexadecimal. -/
def readU32 (cs : List Char) : Option Word :=
  match readNat cs with
  | some n => if n < 2 ^ 32 then some (BitVec.ofNat 32 n) else none
  | none => none

/-- Without blanks at its two ends: a blank is the space character only (DESIGN CHOICE, log 13). -/
def trim (cs : List Char) : List Char := ((cs.dropWhile (· = ' ')).reverse.dropWhile (· = ' ')).reverse

/-- What follows `name` at the head, if it is there. -/
def afterWord : List Char → List Char → Option (List Char)
  | [], cs => some cs
  | n :: ns, c :: cs => if n = c then afterWord ns cs else none
  | _ :: _, [] => none

/-- The fields between commas, `field` being the one that is read; blanks on both sides of a comma are ignored
(DESIGN CHOICE, log 13). -/
def fields : List Char → List Char → List (List Char)
  | field, [] => [trim field]
  | field, c :: cs => if c = ',' then trim field :: fields [] cs else fields (field ++ [c]) cs

/-- The value of a field written `name=value` (R85). R85 is silent on blanks around the `=`: blanks between the name and
the `=` are ignored, and a blank after the `=` is part of the value, which no value reader takes (DESIGN CHOICE,
log 13). -/
def namedField (name : String) (field : List Char) : Option (List Char) :=
  (afterWord name.toList field).bind fun r => afterWord ['='] (r.dropWhile (· = ' '))

/-- The data operand of ENCRYPT and DECRYPT; the empty one is written as two double quotes (character 34), and an
operand left out altogether is refused (DESIGN CHOICE, log 13). -/
def readData (cs : List Char) : Option (List Byte) :=
  if cs.map Char.toNat = [34, 34] then some [] else if cs = [] then none else hexBytes cs

/-- The operands of INIT, all three in the order in which R85 writes them (DESIGN CHOICE, log 13). -/
def readInit (cs : List Char) : Option Line :=
  match fields [] cs with
  | [k, n, c] =>
    match (namedField "key" k).bind hexBytes, (namedField "nonce" n).bind hexBytes,
      (namedField "ctr" c).bind readU32 with
    | some key, some nonce, some ctr => some (.init key nonce ctr)
    | _, _, _ => none
  | _ => none

/-- The operands of INIT0, both in the order in which R86 writes them (DESIGN CHOICE, log 13). -/
def readInit0 (cs : List Char) : Option Line :=
  match fields [] cs with
  | [k, n] =>
    match (namedField "key" k).bind hexBytes, (namedField "nonce" n).bind hexBytes with
    | some key, some nonce => some (.init0 key nonce)
    | _, _ => none
  | _ => none

/-- One line of text: a comment starts at `;` (R85). A line with nothing before it holds no command, `.byte` with nothing
after it emits no bytes, and a line of any other form is refused (DESIGN CHOICE, log 13). -/
def readLine (text : List Char) : Option (Option Line) :=
  let cs := trim (text.takeWhile (· ≠ ';'))
  let word := cs.takeWhile (· ≠ ' ')
  let rest := trim (cs.dropWhile (· ≠ ' '))
  if cs = [] then some none
  else if word = "INIT".toList then (readInit rest).map some
  else if word = "INIT0".toList then (readInit0 rest).map some
  else if word = "ENCRYPT".toList then (readData rest).map fun d => some (.encrypt d)
  else if word = "DECRYPT".toList then (readData rest).map fun d => some (.decrypt d)
  else if word = "SKIP".toList then (readNat rest).map fun n => some (.skip n)
  else if word = ".byte".toList then (hexBytes rest).map fun d => some (.raw d)
  else none

/-- The command stream of a program, one line of text after the other. -/
def assembleText : List (List Char) → Option (List Byte)
  | [] => some []
  | t :: ts =>
    match readLine t, assembleText ts with
    | some none, some bs => some bs
    | some (some l), some bs => l.assemble.map (· ++ bs)
    | _, _ => none

/-- The name of an instruction in a listing (R87; the commands by R77). -/
def listing : Instr → String
  | .init _ _ _ => "INIT"
  | .encrypt _ => "ENCRYPT"
  | .decrypt _ => "DECRYPT"
  | .ldw => "LDW"
  | .qrC0 => "QR.C0"
  | .qrC1 => "QR.C1"
  | .qrC2 => "QR.C2"
  | .qrC3 => "QR.C3"
  | .qrD0 => "QR.D0"
  | .qrD1 => "QR.D1"
  | .qrD2 => "QR.D2"
  | .qrD3 => "QR.D3"
  | .ffadd => "FFADD"
  | .ser => "SER"
  | .ctrinc => "CTRINC"
  | .curclr => "CURCLR"
  | .xorb => "XORB"

end Sys2Proof.Machine
end

