-- ==== Sys2Proof/Safety.lean ====
section
/-! DEFINITION. Safety.lean: the terms in which claims are stated: the invariants of 10_state.md R39 as one predicate on
a state, a run of several steps, and where in its keystream a block stands (43_stream_updater.md R180, R181). -/

namespace Sys2Proof.Machine

/-! ## Written storage -/

/-- S[0..15] are all written (10_state.md R39 INV3). -/
def State.sWritten (s : State) : Prop := ∀ i : Fin 16, (s.readS i).isSome = true

/-- W[0..15] are all written. -/
def State.wWritten (s : State) : Prop := ∀ i : Fin 16, (s.w[i]).isSome = true

/-- KS[0..63] are all written (10_state.md R39 INV4). -/
def State.ksWritten (s : State) : Prop := ∀ j : Fin 64, (memRead s.ks j.val).isSome = true

/-! ## The invariant -/

/-- The invariants of 10_state.md R39 that are about one state (INV1 is the accessor of S, INV8 is `Positioned`), with
what they rest on: where UPC stands (R31), what CUR is in REGEN (43_stream_updater.md R175), what the micro-program has
written by then, and the canonical form of KS. -/
structure State.Inv (s : State) : Prop where
  /-- INV2. -/
  cursor : s.cur ≤ 64#7
  /-- INV3. -/
  initd : s.initd = true ↔ s.sWritten
  /-- INV4. -/
  keystream : s.initd = true → s.cur ≠ 0#7 → s.ksWritten
  /-- INV5 and INV6: a command that runs has a key and a data byte left. -/
  context : s.phase ≠ .ready → s.initd = true ∧ ∃ n i, s.bn = some n ∧ s.bi = some i ∧ i < n
  /-- INV5 and INV7: XFER processes byte 0 of a block that has been written. -/
  xfer : s.phase = .xfer → s.cur = 0#7 ∧ s.ksWritten
  /-- R31: UPC is 0 outside REGEN. -/
  outside : s.phase ≠ .regen → s.upc = 0#7
  /-- INV6: UPC is in 0..84. -/
  inside : s.upc ≤ 84#7
  /-- R175: REGEN runs only where the test of R172 fired. -/
  regenCur : s.phase = .regen → s.cur = 0#7 ∨ s.cur = 64#7
  /-- R39: LDW has written W before any micro-op reads it. -/
  regenW : s.phase = .regen → s.upc ≠ 0#7 → s.wWritten
  /-- R239: SER has written KS before REGEN ends. -/
  regenKs : s.phase = .regen → 83#7 ≤ s.upc → s.ksWritten
  /-- KS is in its canonical form, within 0..63. -/
  memory : Memory.wf s.ks = true

/-! ## Runs -/

/-- `n` steps of the machine. -/
def runSteps (n : Nat) (s : State) : Result := Host.Core.run Sys2Proof.core n s

/-- Some number of steps leads from `s` to `t`. -/
def Reaches (s t : State) : Prop := ∃ n, runSteps n s = .next t

/-- Neither the platform nor the host holds the block up: no reset is asserted and response bytes are taken. -/
def State.free (s : State) : Prop := s.resetLine = false ∧ s.rspReady = true

/-! ## Where a block stands in its keystream -/

/-- The block has processed `k` data bytes since an INIT with these key words, nonce words and counter operand
(43_stream_updater.md R180): S[12] counts the blocks generated, CUR is the place in the current one, and KS holds it. -/
structure State.Positioned (kw : Vector Word 8) (nw : Vector Word 3) (c0 : Word) (k : Nat) (s : State) :
    Prop where
  /-- An INIT has succeeded. -/
  initd : s.initd = true
  /-- S[4..11]. -/
  key : s.key = written kw
  /-- S[13..15]. -/
  nonce : s.nonce = written nw
  /-- S[12] = (c0 + ceil(k / 64)) mod 2^32. -/
  ctr : s.ctr = some (c0 + BitVec.ofNat 32 ((k + 63) / 64))
  /-- CUR = 0 for k = 0, else ((k - 1) mod 64) + 1. -/
  cur : s.cur.toNat = if k = 0 then 0 else (k - 1) % 64 + 1
  /-- KS holds the block of the last byte processed. -/
  ks : k ≠ 0 → ∀ j : Fin 64, memRead s.ks j.val = some (keystreamByte kw nw c0 (64 * ((k - 1) / 64) + j.val))

/-- The output bytes of data that starts at stream offset `k` (43_stream_updater.md R181). -/
def xorStream (key : Vector Word 8) (nonce : Vector Word 3) (c0 : Word) : Nat → List Byte → List Byte
  | _, [] => []
  | k, d :: ds => (d ^^^ keystreamByte key nonce c0 k) :: xorStream key nonce c0 (k + 1) ds

/-- A sequence of ENCRYPT and DECRYPT commands on the command stream, `true` for DECRYPT. -/
def cxCommands : List (Bool × List Byte) → List Byte
  | [] => []
  | (dec, data) :: rest => cxCommand dec data ++ cxCommands rest

/-- The responses to a sequence of accepted commands whose data starts at stream offset `k`: for each, status OK and
the output bytes (30_encoding.md R78). -/
def cxResponses (key : Vector Word 8) (nonce : Vector Word 3) (c0 : Word) : Nat → List (Bool × List Byte) → List Byte
  | _, [] => []
  | k, (_, data) :: rest =>
    statusOk :: (xorStream key nonce c0 k data ++ cxResponses key nonce c0 (k + data.length) rest)

/-- All the data bytes of a sequence of commands, in order. -/
def cxData : List (Bool × List Byte) → List Byte
  | [] => []
  | (_, data) :: rest => data ++ cxData rest

/-- Every command of the sequence has at least one data byte, and a length that fits the field `n`
(30_encoding.md R73, 60_exceptions.md R202). -/
def cxAccepted (cs : List (Bool × List Byte)) : Prop := ∀ c ∈ cs, c.2 ≠ [] ∧ c.2.length < 2 ^ 32

/-- R(c, n), the regenerations of a command of `n` data bytes that starts at cursor `c`
(43_stream_updater.md R177): ceil(n / 64), less what is left of the current block. -/
def regenCount (c n : Nat) : Nat :=
  if c = 0 ∨ c = 64 then (n + 63) / 64 else (n - (64 - c) + 63) / 64

/-! ## What is unchanged between two states -/

/-- S[4..15] are the same. -/
def State.sameS (s t : State) : Prop := t.key = s.key ∧ t.ctr = s.ctr ∧ t.nonce = s.nonce

/-- Every word of W is the same. -/
def State.sameW (s t : State) : Prop := t.w = s.w

/-- Every byte of KS reads as before. -/
def State.sameKs (s t : State) : Prop := ∀ a : Nat, memRead t.ks a = memRead s.ks a

/-- OP, BN and BI are the same. -/
def State.sameContext (s t : State) : Prop := t.op = s.op ∧ t.bn = s.bn ∧ t.bi = s.bi

/-- The streams are the same, the bytes already taken included. -/
def State.sameStreams (s t : State) : Prop := t.cmd = s.cmd ∧ t.rx = s.rx ∧ t.rsp = s.rsp

/-- The inputs from outside are the same. -/
def State.sameInputs (s t : State) : Prop := t.rspReady = s.rspReady ∧ t.resetLine = s.resetLine

/-- Every element of state that 10_state.md R40 lists is the same: S, W, KS, CUR, INITD, PHASE, UPC, OP, BN, BI. -/
def State.sameRecord (s t : State) : Prop :=
  s.sameS t ∧ s.sameW t ∧ s.sameKs t ∧ t.cur = s.cur ∧ t.initd = s.initd ∧ t.phase = s.phase ∧ t.upc = s.upc ∧
    s.sameContext t

/-- The bytes at the head of a command stream that are key, nonce, counter or data values: how many bytes of the command
stand before them, and how many they are. After INIT's opcode and two lengths they are the klen + nlen + 4 bytes of its
operands (30_encoding.md R72), after the five header bytes of ENCRYPT and DECRYPT the n data bytes (R73); nothing where
those lengths have not arrived, or no such command stands there. -/
def operandSpan : List Byte → Nat × Nat
  | op :: b1 :: b2 :: rest =>
    if op = 0x01#8 then (3, b1.toNat + b2.toNat + 4)
    else if op = 0x02#8 ∨ op = 0x03#8 then
      match rest with
      | b3 :: b4 :: _ => (5, (le32 b1 b2 b3 b4).toNat)
      | _ => (0, 0)
    else (0, 0)
  | _ => (0, 0)

/-- The bytes of the stream whose values are no matter of control: in READY those of `operandSpan`, while a command runs
its BN - BI data bytes still to come (10_state.md R32). -/
def State.valueSpan (s : State) : Nat × Nat :=
  if s.phase = .ready then operandSpan s.stream
  else
    match s.bn, s.bi with
    | some n, some i => (0, n.toNat - i.toNat)
    | _, _ => (0, 0)

/-- The two states agree on everything but the values of data, key, nonce and counter: which cells are written, the
position, the cursor, the command context, and how many bytes have arrived, been taken and been sent are the same; the
words of S and W, the bytes of KS, the values of the response bytes, and the stream bytes of `State.valueSpan` may
differ (70_reset_and_hazards.md R242). -/
structure State.SameControl (s t : State) : Prop where
  /-- The same cells of S are written. -/
  sWritten : ∀ i : Fin 16, (t.readS i).isSome = (s.readS i).isSome
  /-- The same cells of W are written. -/
  wWritten : ∀ i : Fin 16, (t.w[i]).isSome = (s.w[i]).isSome
  /-- The same bytes of KS are written. -/
  ksWritten : ∀ j : Nat, (memRead t.ks j).isSome = (memRead s.ks j).isSome
  /-- CUR, INITD, PHASE and UPC. -/
  position : t.cur = s.cur ∧ t.initd = s.initd ∧ t.phase = s.phase ∧ t.upc = s.upc
  /-- OP, BN and BI. -/
  context : s.sameContext t
  /-- As many bytes have been taken, and as many wait. -/
  arrived : t.rx.length = s.rx.length ∧ t.cmd.length = s.cmd.length
  /-- The stream before the bytes of `State.valueSpan`, and after them. -/
  commands : t.stream.take s.valueSpan.1 = s.stream.take s.valueSpan.1 ∧
    t.stream.drop (s.valueSpan.1 + s.valueSpan.2) = s.stream.drop (s.valueSpan.1 + s.valueSpan.2)
  /-- The number of response bytes sent. -/
  responses : t.rsp.length = s.rsp.length
  /-- The inputs from outside. -/
  inputs : s.sameInputs t

/-- The outcomes agree on everything but the values of data: two next states that agree in that sense, or the same
stop. -/
def sameOutcome : Result → Result → Prop
  | .next s, .next t => s.SameControl t
  | .fault f, .fault g => f = g
  | .refused r, .refused q => r = q
  | _, _ => False

/-! ## Readers of an outcome -/

/-- The next state, if the outcome is one. -/
def nextState : Result → Option State
  | .next s => some s
  | .fault _ => none
  | .refused _ => none

end Sys2Proof.Machine
end

