-- ==== Sys2Proof/Certificates/Slice0/Obligations.lean ====
section
/-! DEFINITION. Obligations.lean: the statements for the provers, each about the machine as the numbered rules of spec/
describe it. Nothing is proved here. -/

open Sys2Proof Sys2Proof.Machine

/-! ## Reset and the register files -/

/-- 10_state.md R37: the value of every state element after reset. -/
def Obligations.ResetLeavesSpecState : Prop :=
  State.reset.readS 0 = some 0x61707865#32 ∧ State.reset.readS 1 = some 0x3320646e#32 ∧
  State.reset.readS 2 = some 0x79622d32#32 ∧ State.reset.readS 3 = some 0x6b206574#32 ∧
  (∀ i : Fin 16, 4 ≤ i.val → State.reset.readS i = none) ∧
  (∀ i : Fin 16, State.reset.w[i] = none) ∧
  (∀ j : Nat, memRead State.reset.ks j = none) ∧
  State.reset.cur = 0#7 ∧ State.reset.initd = false ∧ State.reset.phase = .ready ∧ State.reset.upc = 0#7 ∧
  State.reset.op = none ∧ State.reset.bn = none ∧ State.reset.bi = none

/-- 10_state.md R21: S[0..3] hold the four constants in every state, so in every state that any command or micro-op
leaves. -/
def Obligations.ConstantsAreHardwired : Prop :=
  ∀ s : State,
    s.readS 0 = some 0x61707865#32 ∧ s.readS 1 = some 0x3320646e#32 ∧ s.readS 2 = some 0x79622d32#32 ∧
    s.readS 3 = some 0x6b206574#32

/-- 10_state.md R25, R22 to R24: key and nonce change only where a step runs INIT, the counter only there or where a
step of REGEN runs CTRINC; the reset event apart. -/
def Obligations.OnlyInitAndCtrincWriteS : Prop :=
  ∀ s t : State, s.resetLine = false → step s = .next t →
    ((t.key ≠ s.key ∨ t.nonce ≠ s.nonce) →
      s.phase = .ready ∧ ∃ key nonce ctr len, decodeCommand s.stream = .complete (.init key nonce ctr) len) ∧
    (t.ctr ≠ s.ctr →
      (s.phase = .ready ∧ ∃ key nonce ctr len, decodeCommand s.stream = .complete (.init key nonce ctr) len) ∨
      (s.phase = .regen ∧ rom[s.upc.toNat]? = some 0x40#8))

/-- 10_state.md R29: INITD is set by a successful INIT and cleared only by reset. -/
def Obligations.InitdSetByInitClearedByReset : Prop :=
  ∀ s t : State, step s = .next t →
    (s.initd = true → s.resetLine = false → t.initd = true) ∧
    (s.resetLine = true → t.initd = false) ∧
    (s.initd = false → t.initd = true →
      s.phase = .ready ∧
        ∃ key nonce ctr len, decodeCommand s.stream = .complete (.init key nonce ctr) len ∧
          key.length = 32 ∧ nonce.length = 12 ∧ t.rsp = s.rsp ++ [0x00#8] ∧ t.sWritten)

/-- 10_state.md R27: SER is the only writer of KS, the reset event apart. -/
def Obligations.OnlySerWritesKs : Prop :=
  ∀ s t : State, s.resetLine = false → step s = .next t → t.ks ≠ s.ks →
    s.phase = .regen ∧ rom[s.upc.toNat]? = some 0x30#8

/-! ## Encoding -/

/-- 30_encoding.md R72 to R76, R81: decoding the encoding of a well-formed instruction gives it back, whatever bytes
follow, and takes exactly the encoded bytes. -/
def Obligations.DecodeOfEncodeIsIdentity : Prop :=
  ∀ (i : Instr) (rest : List Byte), i.wf = true →
    (i.isCommand = true → decodeCommand (encode i ++ rest) = .complete i (encode i).length) ∧
    (i.isCommand = false → encode i = [i.code] ∧ decodeMicro i.code = .op i)

/-- 30_encoding.md R72 to R76: whatever the command decoder accepts is a well-formed command, and the bytes it takes
are the command's encoding. -/
def Obligations.EncodeOfDecodeIsIdentity : Prop :=
  ∀ (bs : List Byte) (i : Instr) (len : Nat), decodeCommand bs = .complete i len →
    i.wf = true ∧ i.isCommand = true ∧ bs.take len = encode i ∧ len ≤ bs.length

/-- 30_encoding.md R72 to R75: the fields of format CI, whatever its lengths, and of the header of format CX, whatever
follows it. -/
def Obligations.CommandFields : Prop :=
  (∀ (klen nlen c0 c1 c2 c3 : Byte) (key nonce rest : List Byte), key.length = klen.toNat →
    nonce.length = nlen.toNat →
    decodeCommand (0x01#8 :: klen :: nlen :: (key ++ (nonce ++ (c0 :: c1 :: c2 :: c3 :: rest)))) =
      .complete (.init key nonce (le32 c0 c1 c2 c3)) (7 + klen.toNat + nlen.toNat)) ∧
  (∀ (l0 l1 l2 l3 : Byte) (rest : List Byte),
    decodeCommand (0x02#8 :: l0 :: l1 :: l2 :: l3 :: rest) = .complete (.encrypt (le32 l0 l1 l2 l3)) 5 ∧
    decodeCommand (0x03#8 :: l0 :: l1 :: l2 :: l3 :: rest) = .complete (.decrypt (le32 l0 l1 l2 l3)) 5)

/-- 30_encoding.md R77, R84; 60_exceptions.md R204: exactly 0x00 and 0x04..0xFF are illegal opcodes. -/
def Obligations.IllegalOpcodes : Prop :=
  ∀ (op : Byte) (bs : List Byte),
    decodeCommand (op :: bs) = .illegal op ↔ (op = 0x00#8 ∨ 0x04#8 ≤ op)

/-- 30_encoding.md R81: the fourteen codes, their QR groups by the formula of R80, and every other code reserved. -/
def Obligations.MicroOpCodes : Prop :=
  decodeMicro 0x00#8 = .op .ldw ∧
  (decodeMicro 0x10#8 = .op .qrC0 ∧ qrGroup false 0 = (0, 4, 8, 12)) ∧
  (decodeMicro 0x11#8 = .op .qrC1 ∧ qrGroup false 1 = (1, 5, 9, 13)) ∧
  (decodeMicro 0x12#8 = .op .qrC2 ∧ qrGroup false 2 = (2, 6, 10, 14)) ∧
  (decodeMicro 0x13#8 = .op .qrC3 ∧ qrGroup false 3 = (3, 7, 11, 15)) ∧
  (decodeMicro 0x14#8 = .op .qrD0 ∧ qrGroup true 0 = (0, 5, 10, 15)) ∧
  (decodeMicro 0x15#8 = .op .qrD1 ∧ qrGroup true 1 = (1, 6, 11, 12)) ∧
  (decodeMicro 0x16#8 = .op .qrD2 ∧ qrGroup true 2 = (2, 7, 8, 13)) ∧
  (decodeMicro 0x17#8 = .op .qrD3 ∧ qrGroup true 3 = (3, 4, 9, 14)) ∧
  decodeMicro 0x20#8 = .op .ffadd ∧ decodeMicro 0x30#8 = .op .ser ∧ decodeMicro 0x40#8 = .op .ctrinc ∧
  decodeMicro 0x50#8 = .op .curclr ∧ decodeMicro 0x60#8 = .op .xorb ∧
  (∀ c : Byte,
    c ∉ [0x00#8, 0x10#8, 0x11#8, 0x12#8, 0x13#8, 0x14#8, 0x15#8, 0x16#8, 0x17#8, 0x20#8, 0x30#8, 0x40#8, 0x50#8,
      0x60#8] → decodeMicro c = .reserved c)

/-- 30_encoding.md R82: the 85 entries of the micro-program; XORB is not among them. -/
def Obligations.RomContents : Prop :=
  rom.length = 85 ∧ rom[0]? = some 0x00#8 ∧
  (∀ r g : Nat, r < 10 → g < 8 → rom[1 + 8 * r + g]? = some (0x10#8 + BitVec.ofNat 8 g)) ∧
  rom[81]? = some 0x20#8 ∧ rom[82]? = some 0x30#8 ∧ rom[83]? = some 0x40#8 ∧ rom[84]? = some 0x50#8 ∧
  0x60#8 ∉ rom

/-- 95_test_vectors.md L2.7: a few words written out from the encodings decode to the instructions they stand for. -/
def Obligations.WrittenOutWordsDecode : Prop :=
  decodeCommand [0x02#8, 0x04#8, 0x00#8, 0x00#8, 0x00#8, 0x4c#8, 0x61#8, 0x64#8, 0x69#8] = .complete (.encrypt 4) 5 ∧
  decodeCommand [0x03#8, 0x2c#8, 0x01#8, 0x00#8, 0x00#8] = .complete (.decrypt 300) 5 ∧
  decodeCommand [0x01#8, 0x02#8, 0x01#8, 0xaa#8, 0xbb#8, 0xcc#8, 0x01#8, 0x02#8, 0x03#8, 0x04#8] =
    .complete (.init [0xaa#8, 0xbb#8] [0xcc#8] 0x04030201#32) 10 ∧
  decodeCommand [0x80#8] = .illegal 0x80#8 ∧
  decodeMicro 0x16#8 = .op .qrD2 ∧ decodeMicro 0x30#8 = .op .ser

/-- 00_scope.md R10: byte assembly and disassembly are inverse. -/
def Obligations.BytesAndWordsAreInverse : Prop :=
  (∀ w : Word, le32 (byteOf 0 w) (byteOf 1 w) (byteOf 2 w) (byteOf 3 w) = w) ∧
  (∀ b0 b1 b2 b3 : Byte,
    (le32 b0 b1 b2 b3).toNat = b0.toNat + 2 ^ 8 * b1.toNat + 2 ^ 16 * b2.toNat + 2 ^ 24 * b3.toNat ∧
    byteOf 0 (le32 b0 b1 b2 b3) = b0 ∧ byteOf 1 (le32 b0 b1 b2 b3) = b1 ∧ byteOf 2 (le32 b0 b1 b2 b3) = b2 ∧
    byteOf 3 (le32 b0 b1 b2 b3) = b3)

/-! ## Arithmetic -/

/-- 41_quarter_round.md R120, R121: addition modulo 2^32 with the carry discarded, and bitwise exclusive-or. -/
def Obligations.AddAndXor : Prop :=
  (∀ a b : Word, (add32 a b).toNat = (a.toNat + b.toNat) % 2 ^ 32) ∧
  (∀ (a b : Word) (n : Nat), (xor32 a b).getLsbD n = (a.getLsbD n ^^ b.getLsbD n)) ∧
  add32 0xffffffff#32 0x00000001#32 = 0#32 ∧ add32 0x80000000#32 0x80000000#32 = 0#32

/-- 41_quarter_round.md R122: rotation by the two shifts; for each amount in 1..31 it is a bijection and keeps the
number of one bits. -/
def Obligations.RotationIsABijection : Prop :=
  ∀ n : Nat, 1 ≤ n → n ≤ 31 →
    (∀ x : Word, rotl32 x n = x <<< n ||| x >>> (32 - n)) ∧
    Function.Bijective (fun x : Word => rotl32 x n) ∧
    (∀ x : Word,
      ((List.range 32).filter (fun k => (rotl32 x n).getLsbD k)).length =
        ((List.range 32).filter (fun k => x.getLsbD k)).length)

/-- 41_quarter_round.md R123: the twelve operations of QR, in their order; QR is a bijection on four words, and the
all-zero tuple is a fixed point. -/
def Obligations.QuarterRoundIsABijection : Prop :=
  (∀ a b c d a1 d1 c1 b1 a2 d2 c2 b2 : Word,
    a1 = a + b → d1 = (d ^^^ a1) <<< 16 ||| (d ^^^ a1) >>> 16 →
    c1 = c + d1 → b1 = (b ^^^ c1) <<< 12 ||| (b ^^^ c1) >>> 20 →
    a2 = a1 + b1 → d2 = (d1 ^^^ a2) <<< 8 ||| (d1 ^^^ a2) >>> 24 →
    c2 = c1 + d2 → b2 = (b1 ^^^ c2) <<< 7 ||| (b1 ^^^ c2) >>> 25 →
    qr a b c d = (a2, b2, c2, d2)) ∧
  Function.Bijective (fun v : Word × Word × Word × Word => qr v.1 v.2.1 v.2.2.1 v.2.2.2) ∧
  qr 0 0 0 0 = (0, 0, 0, 0)

/-- 42_block_function.md R150: the four QRs of a column round, or of a diagonal round, may be applied in any order;
the two rounds may not be exchanged. -/
def Obligations.OrderWithinARoundIsImmaterial : Prop :=
  (∀ (l : List (Vector Word 16 → Vector Word 16)) (x : Vector Word 16),
    l.Perm [qrAt 0 4 8 12, qrAt 1 5 9 13, qrAt 2 6 10 14, qrAt 3 7 11 15] →
      l.foldl (fun y f => f y) x = columnRound x) ∧
  (∀ (l : List (Vector Word 16 → Vector Word 16)) (x : Vector Word 16),
    l.Perm [qrAt 0 5 10 15, qrAt 1 6 11 12, qrAt 2 7 8 13, qrAt 3 4 9 14] →
      l.foldl (fun y f => f y) x = diagonalRound x) ∧
  (∃ x : Vector Word 16, columnRound (diagonalRound x) ≠ doubleRound x)

/-- 42_block_function.md R140, R142 to R145: the four QRs of a column round and of a diagonal round, the double round,
ten of them, the feed-forward and the serialization; and BLOCK of the all-zero key, nonce and counter. -/
def Obligations.BlockFunctionAsStated : Prop :=
  (∀ x y : Vector Word 16, y = columnRound x →
    (y[0], y[4], y[8], y[12]) = qr x[0] x[4] x[8] x[12] ∧ (y[1], y[5], y[9], y[13]) = qr x[1] x[5] x[9] x[13] ∧
    (y[2], y[6], y[10], y[14]) = qr x[2] x[6] x[10] x[14] ∧
    (y[3], y[7], y[11], y[15]) = qr x[3] x[7] x[11] x[15]) ∧
  (∀ x y : Vector Word 16, y = diagonalRound x →
    (y[0], y[5], y[10], y[15]) = qr x[0] x[5] x[10] x[15] ∧ (y[1], y[6], y[11], y[12]) = qr x[1] x[6] x[11] x[12] ∧
    (y[2], y[7], y[8], y[13]) = qr x[2] x[7] x[8] x[13] ∧ (y[3], y[4], y[9], y[14]) = qr x[3] x[4] x[9] x[14]) ∧
  (∀ x : Vector Word 16, doubleRound x = diagonalRound (columnRound x)) ∧
  (∀ (s : Vector Word 16) (k : Fin 16) (m : Fin 4) (j : Fin 64), j.val = 4 * k.val + m.val →
    (block s)[j] = byteOf m.val (add32 (doubleRound^[10] s)[k] s[k])) ∧
  (block (cipherWords (Vector.replicate 8 0) 0 (Vector.replicate 3 0))).toList =
    [0x76#8, 0xb8#8, 0xe0#8, 0xad#8, 0xa0#8, 0xf1#8, 0x3d#8, 0x90#8, 0x40#8, 0x5d#8, 0x6a#8, 0xe5#8,
      0x53#8, 0x86#8, 0xbd#8, 0x28#8, 0xbd#8, 0xd2#8, 0x19#8, 0xb8#8, 0xa0#8, 0x8d#8, 0xed#8, 0x1a#8,
      0xa8#8, 0x36#8, 0xef#8, 0xcc#8, 0x8b#8, 0x77#8, 0x0d#8, 0xc7#8, 0xda#8, 0x41#8, 0x59#8, 0x7c#8,
      0x51#8, 0x57#8, 0x48#8, 0x8d#8, 0x77#8, 0x24#8, 0xe0#8, 0x3f#8, 0xb8#8, 0xd8#8, 0x4a#8, 0x37#8,
      0x6a#8, 0x43#8, 0xb8#8, 0xf4#8, 0x15#8, 0x18#8, 0xa1#8, 0x1c#8, 0xc3#8, 0x87#8, 0xb6#8, 0x69#8,
      0xb2#8, 0xee#8, 0x65#8, 0x86#8]

/-! ## Micro-ops: what they do -/

/-- 41_quarter_round.md R124 to R132 for one QR micro-op `i` of code `code` on the group (a, b, c, d): where the four
words are written, it answers the state in which QR of them stands in those four words, every other word of W and every
other field is as before, and UPC has advanced. -/
def Sys2Proof.Machine.QrMicroOp (code : Byte) (i : Instr) (a b c d : Fin 16) : Prop :=
  decodeMicro code = .op i ∧
  ∀ (s : State) (wa wb wc wd : Word), s.w[a] = some wa → s.w[b] = some wb → s.w[c] = some wc → s.w[d] = some wd →
    ∃ w' : Vector (Option Word) 16,
      exec i s = .next { s with w := w', upc := s.upc + 1 } ∧
      (∃ a' b' c' d' : Word, (a', b', c', d') = qr wa wb wc wd ∧
        w'[a] = some a' ∧ w'[b] = some b' ∧ w'[c] = some c' ∧ w'[d] = some d') ∧
      (∀ j : Fin 16, j ≠ a → j ≠ b → j ≠ c → j ≠ d → w'[j] = s.w[j])

/-- 41_quarter_round.md R125 to R132: the eight QR micro-ops. -/
def Obligations.QrMicroOpsMixTheirGroups : Prop :=
  QrMicroOp 0x10#8 .qrC0 0 4 8 12 ∧ QrMicroOp 0x11#8 .qrC1 1 5 9 13 ∧ QrMicroOp 0x12#8 .qrC2 2 6 10 14 ∧
  QrMicroOp 0x13#8 .qrC3 3 7 11 15 ∧ QrMicroOp 0x14#8 .qrD0 0 5 10 15 ∧ QrMicroOp 0x15#8 .qrD1 1 6 11 12 ∧
  QrMicroOp 0x16#8 .qrD2 2 7 8 13 ∧ QrMicroOp 0x17#8 .qrD3 3 4 9 14

/-- 42_block_function.md R141: LDW copies all of S into W, whatever W held. -/
def Obligations.LdwCopiesState : Prop :=
  decodeMicro 0x00#8 = .op .ldw ∧ rom[0]? = some 0x00#8 ∧
  ∀ s : State, s.sWritten →
    ∃ w' : Vector (Option Word) 16,
      exec .ldw s = .next { s with w := w', upc := s.upc + 1 } ∧ ∀ i : Fin 16, w'[i] = s.readS i

/-- 42_block_function.md R146: FFADD adds S to W word by word modulo 2^32. -/
def Obligations.FfaddAddsState : Prop :=
  decodeMicro 0x20#8 = .op .ffadd ∧ rom[81]? = some 0x20#8 ∧
  ∀ s : State, s.sWritten → s.wWritten →
    ∃ w' : Vector (Option Word) 16,
      exec .ffadd s = .next { s with w := w', upc := s.upc + 1 } ∧
      ∀ (i : Fin 16) (x y : Word), s.w[i] = some x → s.readS i = some y → w'[i] = some (add32 x y)

/-- 42_block_function.md R147, 20_memory.md R55, R58: SER writes every byte of KS, little-endian, and KS then reads
back as the words of W. -/
def Obligations.SerSerializesLittleEndian : Prop :=
  decodeMicro 0x30#8 = .op .ser ∧ rom[82]? = some 0x30#8 ∧
  ∀ s : State, s.wWritten →
    ∃ ks' : Memory,
      exec .ser s = .next { s with ks := ks', upc := s.upc + 1 } ∧
      (∀ (k : Fin 16) (m : Fin 4) (x : Word), s.w[k] = some x →
        memRead ks' (4 * k.val + m.val) = some (byteOf m.val x)) ∧
      (∀ (k : Fin 16) (x : Word), s.w[k] = some x →
        ∃ b0 b1 b2 b3 : Byte, memRead ks' (4 * k.val) = some b0 ∧ memRead ks' (4 * k.val + 1) = some b1 ∧
          memRead ks' (4 * k.val + 2) = some b2 ∧ memRead ks' (4 * k.val + 3) = some b3 ∧ le32 b0 b1 b2 b3 = x)

/-- 43_stream_updater.md R174: CTRINC adds one to S[12] modulo 2^32, 0xFFFFFFFF becoming 0 silently. -/
def Obligations.CtrincIncrementsCounter : Prop :=
  decodeMicro 0x40#8 = .op .ctrinc ∧ rom[83]? = some 0x40#8 ∧
  ∀ (s : State) (c : Word), s.readS 12 = some c →
    ∃ c' : Word, exec .ctrinc s = .next { s with ctr := some c', upc := s.upc + 1 } ∧
      c'.toNat = (c.toNat + 1) % 2 ^ 32 ∧ (c = 0xffffffff#32 → c' = 0#32)

/-- 43_stream_updater.md R175, 42_block_function.md R149: CURCLR sets CUR to 0 and the sequencer leaves REGEN for
XFER, from every state. -/
def Obligations.CurclrClearsCursor : Prop :=
  decodeMicro 0x50#8 = .op .curclr ∧ rom[84]? = some 0x50#8 ∧
  ∀ s : State, exec .curclr s = .next { s with cur := 0#7, phase := .xfer, upc := 0#7 }

/-- 43_stream_updater.md R176: XORB takes one data byte, sends its exclusive-or with KS[CUR], and advances CUR and BI;
the command is complete when BI reaches BN; it waits where no data byte has arrived. -/
def Obligations.XorbCombinesOneByte : Prop :=
  decodeMicro 0x60#8 = .op .xorb ∧ 0x60#8 ∉ rom ∧
  (∀ (s : State) (n i : Word) (d k : Byte) (rest : List Byte), s.bn = some n → s.bi = some i → i < n → s.cur ≤ 63#7 →
    s.rx ++ s.cmd = d :: rest → memRead s.ks s.cur.toNat = some k → s.rspReady = true →
    exec .xorb s =
      .next
        { s with
          rx := []
          cmd := rest
          rsp := s.rsp ++ [d ^^^ k]
          cur := s.cur + 1
          bi := some (i + 1)
          phase := if i + 1 = n then .ready else .loop }) ∧
  (∀ (s : State) (n i : Word), s.bn = some n → s.bi = some i → i < n → s.cur ≤ 63#7 → s.rx ++ s.cmd = [] →
    exec .xorb s = .next s)

/-- 10_state.md R38, 60_exceptions.md R209: the read of an unwritten cell stops the machine with a fault of that
name, and gives no value. -/
def Obligations.UnwrittenReadsFault : Prop :=
  (∀ s : State, ¬ s.sWritten → exec .ldw s = .fault (.unwrittenRead .s)) ∧
  (∀ s : State, ¬ s.wWritten → exec .ffadd s = .fault (.unwrittenRead .w)) ∧
  (∀ s : State, s.wWritten → ¬ s.sWritten → exec .ffadd s = .fault (.unwrittenRead .s)) ∧
  (∀ s : State, ¬ s.wWritten → exec .ser s = .fault (.unwrittenRead .w)) ∧
  (∀ s : State, s.readS 12 = none → exec .ctrinc s = .fault (.unwrittenRead .s)) ∧
  (∀ s : State, s.w[0] = none ∨ s.w[4] = none ∨ s.w[8] = none ∨ s.w[12] = none →
    exec .qrC0 s = .fault (.unwrittenRead .w)) ∧
  (∀ s : State, s.w[1] = none ∨ s.w[5] = none ∨ s.w[9] = none ∨ s.w[13] = none →
    exec .qrC1 s = .fault (.unwrittenRead .w)) ∧
  (∀ s : State, s.w[2] = none ∨ s.w[6] = none ∨ s.w[10] = none ∨ s.w[14] = none →
    exec .qrC2 s = .fault (.unwrittenRead .w)) ∧
  (∀ s : State, s.w[3] = none ∨ s.w[7] = none ∨ s.w[11] = none ∨ s.w[15] = none →
    exec .qrC3 s = .fault (.unwrittenRead .w)) ∧
  (∀ s : State, s.w[0] = none ∨ s.w[5] = none ∨ s.w[10] = none ∨ s.w[15] = none →
    exec .qrD0 s = .fault (.unwrittenRead .w)) ∧
  (∀ s : State, s.w[1] = none ∨ s.w[6] = none ∨ s.w[11] = none ∨ s.w[12] = none →
    exec .qrD1 s = .fault (.unwrittenRead .w)) ∧
  (∀ s : State, s.w[2] = none ∨ s.w[7] = none ∨ s.w[8] = none ∨ s.w[13] = none →
    exec .qrD2 s = .fault (.unwrittenRead .w)) ∧
  (∀ s : State, s.w[3] = none ∨ s.w[4] = none ∨ s.w[9] = none ∨ s.w[14] = none →
    exec .qrD3 s = .fault (.unwrittenRead .w)) ∧
  (∀ (s : State) (n i : Word) (d : Byte) (rest : List Byte), s.bn = some n → s.bi = some i → i < n → s.cur ≤ 63#7 →
    s.rx ++ s.cmd = d :: rest → memRead s.ks s.cur.toNat = none → exec .xorb s = .fault (.unwrittenRead .ks)) ∧
  (∀ s : State, s.bn = none ∨ s.bi = none → exec .xorb s = .fault (.unwrittenRead .context))

/-! ## Commands: what they do -/

/-- 40_init.md R100: an INIT of 32 key bytes and 12 nonce bytes loads S[4..15] little-endian, sets CUR and INITD, sends
status OK, and changes nothing else; whatever the state before. -/
def Obligations.InitLoadsCipherState : Prop :=
  ∀ (s : State) (key nonce : List Byte) (ctr : Word), key.length = 32 → nonce.length = 12 → s.rspReady = true →
    ∃ (k' : Vector (Option Word) 8) (n' : Vector (Option Word) 3),
      exec (.init key nonce ctr) s =
        .next
          { s with
            key := k', ctr := some ctr, nonce := n', cur := 0#7, initd := true, rx := [],
            rsp := s.rsp ++ [0x00#8] } ∧
      (∀ i : Fin 8,
        k'[i] = some (le32 (key.getD (4 * i.val) 0) (key.getD (4 * i.val + 1) 0) (key.getD (4 * i.val + 2) 0)
          (key.getD (4 * i.val + 3) 0))) ∧
      (∀ i : Fin 3,
        n'[i] = some (le32 (nonce.getD (4 * i.val) 0) (nonce.getD (4 * i.val + 1) 0) (nonce.getD (4 * i.val + 2) 0)
          (nonce.getD (4 * i.val + 3) 0)))

/-- 40_init.md R102: a rejected INIT leaves every state element unchanged and is answered VALIDATION_ERROR. -/
def Obligations.RejectedInitChangesNothing : Prop :=
  ∀ (s : State) (key nonce : List Byte) (ctr : Word), (key.length ≠ 32 ∨ nonce.length ≠ 12) → s.rspReady = true →
    exec (.init key nonce ctr) s = .next { s with rx := [], rsp := s.rsp ++ [0x01#8] }

/-- 40_init.md R101, R103: after a successful INIT the block stands at offset 0 of the keystream of its operands,
whatever it did before. -/
def Obligations.InitStartsFreshKeystream : Prop :=
  ∀ (s : State) (key nonce : List Byte) (ctr : Word), key.length = 32 → nonce.length = 12 → s.rspReady = true →
    ∃ t : State, exec (.init key nonce ctr) s = .next t ∧
      State.Positioned (Vector.ofFn fun i => wordAt key i.val) (Vector.ofFn fun i => wordAt nonce i.val) ctr 0 t

/-- 43_stream_updater.md R170, R171: with a key loaded and n not 0, ENCRYPT and DECRYPT are accepted: OP, BN, BI and
PHASE are written, status OK is sent, and nothing else changes. -/
def Obligations.StreamCommandsAccepted : Prop :=
  ∀ (s : State) (n : Word), s.initd = true → n ≠ 0#32 → s.rspReady = true →
    exec (.encrypt n) s =
      .next
        { s with
          op := some 0x02#8, bn := some n, bi := some 0#32, phase := .loop, rx := [], rsp := s.rsp ++ [0x00#8] } ∧
    exec (.decrypt n) s =
      .next
        { s with
          op := some 0x03#8, bn := some n, bi := some 0#32, phase := .loop, rx := [], rsp := s.rsp ++ [0x00#8] }

/-- 60_exceptions.md R202 V3, R206: with a key loaded, n = 0 is rejected with VALIDATION_ERROR and nothing changes. -/
def Obligations.EmptyDataRejected : Prop :=
  ∀ s : State, s.initd = true → s.rspReady = true →
    exec (.encrypt 0#32) s = .next { s with rx := [], rsp := s.rsp ++ [0x01#8] } ∧
    exec (.decrypt 0#32) s = .next { s with rx := [], rsp := s.rsp ++ [0x01#8] }

/-- 60_exceptions.md R203, R206: with no key loaded, ENCRYPT and DECRYPT consume and discard their n data bytes, n = 0
included, are answered NOT_INITIALIZED, and change nothing; while data bytes are missing they wait
(70_reset_and_hazards.md R240). (That the wait takes all the bytes that have arrived is log 4, the model's choice.) -/
def Obligations.UninitializedRejectedWithPayload : Prop :=
  ∀ (s : State) (n : Word), s.initd = false →
    (n.toNat ≤ s.cmd.length → s.rspReady = true →
      exec (.encrypt n) s = .next { s with rx := [], cmd := s.cmd.drop n.toNat, rsp := s.rsp ++ [0x02#8] } ∧
      exec (.decrypt n) s = .next { s with rx := [], cmd := s.cmd.drop n.toNat, rsp := s.rsp ++ [0x02#8] }) ∧
    (s.cmd.length < n.toNat →
      exec (.encrypt n) s = .next { s with rx := s.rx ++ s.cmd, cmd := [] } ∧
      exec (.decrypt n) s = .next { s with rx := s.rx ++ s.cmd, cmd := [] })

/-- 43_stream_updater.md R171: DECRYPT is format CX with opcode 0x03; it does what ENCRYPT does, on every outcome, but that
an acceptance writes 0x03 into OP where ENCRYPT writes 0x02; and OP has no effect on any computation: from states that
differ in OP only, a step gives states that differ in OP only. (That a command waiting to send its status has not yet
written OP, where the host takes no byte, is log 8, an inference of the model from 70_reset_and_hazards.md R240.) -/
def Obligations.DecryptIsEncryptButForOp : Prop :=
  (∀ (l0 l1 l2 l3 : Byte) (rest : List Byte),
    decodeCommand (0x03#8 :: l0 :: l1 :: l2 :: l3 :: rest) = .complete (.decrypt (le32 l0 l1 l2 l3)) 5) ∧
  (∀ (s : State) (n : Word), ∃ t : State, exec (.encrypt n) s = .next t ∧
    if s.initd = true ∧ n ≠ 0#32 ∧ s.rspReady = true then
      t.op = some 0x02#8 ∧ exec (.decrypt n) s = .next { t with op := some 0x03#8 }
    else t.op = s.op ∧ exec (.decrypt n) s = .next t) ∧
  (∀ (s t : State) (o : Option Byte), step s = .next t →
    ∃ o' : Option Byte, step { s with op := o } = .next { t with op := o' })

/-! ## Frames -/

/-- 42_block_function.md R141, R146; 41_quarter_round.md R124: LDW, FFADD and the QR micro-ops change W and UPC only;
a QR micro-op changes only the four words of its group. -/
def Obligations.FrameOfWorkingBufferOps : Prop :=
  (∀ (i : Instr) (s t : State),
    i ∈ [Instr.ldw, .ffadd, .qrC0, .qrC1, .qrC2, .qrC3, .qrD0, .qrD1, .qrD2, .qrD3] → exec i s = .next t →
      s.sameS t ∧ s.sameKs t ∧ t.cur = s.cur ∧ t.initd = s.initd ∧ t.phase = s.phase ∧ s.sameContext t ∧
      s.sameStreams t ∧ s.sameInputs t) ∧
  (∀ s t : State, exec .qrC0 s = .next t → ∀ j : Fin 16, j ∉ [0, 4, 8, 12] → t.w[j] = s.w[j]) ∧
  (∀ s t : State, exec .qrC1 s = .next t → ∀ j : Fin 16, j ∉ [1, 5, 9, 13] → t.w[j] = s.w[j]) ∧
  (∀ s t : State, exec .qrC2 s = .next t → ∀ j : Fin 16, j ∉ [2, 6, 10, 14] → t.w[j] = s.w[j]) ∧
  (∀ s t : State, exec .qrC3 s = .next t → ∀ j : Fin 16, j ∉ [3, 7, 11, 15] → t.w[j] = s.w[j]) ∧
  (∀ s t : State, exec .qrD0 s = .next t → ∀ j : Fin 16, j ∉ [0, 5, 10, 15] → t.w[j] = s.w[j]) ∧
  (∀ s t : State, exec .qrD1 s = .next t → ∀ j : Fin 16, j ∉ [1, 6, 11, 12] → t.w[j] = s.w[j]) ∧
  (∀ s t : State, exec .qrD2 s = .next t → ∀ j : Fin 16, j ∉ [2, 7, 8, 13] → t.w[j] = s.w[j]) ∧
  (∀ s t : State, exec .qrD3 s = .next t → ∀ j : Fin 16, j ∉ [3, 4, 9, 14] → t.w[j] = s.w[j])

/-- 42_block_function.md R147; 43_stream_updater.md R174, R175: SER changes KS and UPC only, CTRINC S[12] and UPC only,
CURCLR CUR and the position only. -/
def Obligations.FrameOfSerCtrincCurclr : Prop :=
  (∀ s t : State, exec .ser s = .next t →
    s.sameS t ∧ s.sameW t ∧ (∀ a : Nat, 64 ≤ a → memRead t.ks a = memRead s.ks a) ∧ t.cur = s.cur ∧
    t.initd = s.initd ∧ t.phase = s.phase ∧ s.sameContext t ∧ s.sameStreams t ∧ s.sameInputs t) ∧
  (∀ s t : State, exec .ctrinc s = .next t →
    t.key = s.key ∧ t.nonce = s.nonce ∧ s.sameW t ∧ s.sameKs t ∧ t.cur = s.cur ∧ t.initd = s.initd ∧
    t.phase = s.phase ∧ s.sameContext t ∧ s.sameStreams t ∧ s.sameInputs t) ∧
  (∀ s t : State, exec .curclr s = .next t →
    s.sameS t ∧ s.sameW t ∧ s.sameKs t ∧ t.initd = s.initd ∧ s.sameContext t ∧ s.sameStreams t ∧ s.sameInputs t)

/-- 43_stream_updater.md R176: XORB changes CUR, BI, PHASE and the streams only. -/
def Obligations.FrameOfXorb : Prop :=
  ∀ s t : State, exec .xorb s = .next t →
    s.sameS t ∧ s.sameW t ∧ s.sameKs t ∧ t.initd = s.initd ∧ t.upc = s.upc ∧ t.op = s.op ∧ t.bn = s.bn ∧
    s.sameInputs t

/-- 40_init.md R100; 43_stream_updater.md R170, R171: INIT leaves W, KS, PHASE, UPC and the command context as they
are; ENCRYPT and DECRYPT leave S, W, KS, CUR, INITD and UPC as they are. -/
def Obligations.FrameOfCommands : Prop :=
  (∀ (s t : State) (key nonce : List Byte) (ctr : Word), exec (.init key nonce ctr) s = .next t →
    s.sameW t ∧ s.sameKs t ∧ t.phase = s.phase ∧ t.upc = s.upc ∧ s.sameContext t ∧ t.cmd = s.cmd ∧ s.sameInputs t) ∧
  (∀ (s t : State) (n : Word), exec (.encrypt n) s = .next t ∨ exec (.decrypt n) s = .next t →
    s.sameS t ∧ s.sameW t ∧ s.sameKs t ∧ t.cur = s.cur ∧ t.initd = s.initd ∧ t.upc = s.upc ∧ s.sameInputs t)

/-! ## Steps -/

/-- 10_state.md R33; 30_encoding.md R76: in READY, where the bytes on the stream decode to a command, the step is exec
of it, in the state in which the command's bytes have been taken from the stream. -/
def Obligations.StepRunsDecodedCommand : Prop :=
  ∀ (s : State) (i : Instr) (len : Nat), s.resetLine = false → s.controlFault = none → s.phase = .ready →
    decodeCommand (s.rx ++ s.cmd) = .complete i len →
    step s = exec i { s with rx := (s.rx ++ s.cmd).take len, cmd := (s.rx ++ s.cmd).drop len }

/-- 42_block_function.md R149; 43_stream_updater.md R172: in REGEN the step is exec of the micro-op that ROM[UPC]
decodes to; in XFER it is exec of XORB; in LOOP it is exec of XORB unless CUR is 0 or 64, and then it is the entry of
REGEN. -/
def Obligations.StepRunsSequencedMicroOp : Prop :=
  ∀ s : State, s.resetLine = false → s.controlFault = none →
    (∀ (code : Byte) (i : Instr), s.phase = .regen → rom[s.upc.toNat]? = some code → decodeMicro code = .op i →
      step s = exec i s) ∧
    (s.phase = .xfer → step s = exec .xorb s) ∧
    (s.phase = .loop → s.cur ≠ 0#7 → s.cur ≠ 64#7 → step s = exec .xorb s) ∧
    (s.phase = .loop → s.cur = 0#7 ∨ s.cur = 64#7 → step s = .next { s with phase := .regen, upc := 0#7 })

/-- 60_exceptions.md R204, R206: an unassigned opcode is answered ILLEGAL_COMMAND, whatever INITD is; one byte is
consumed and nothing else changes. -/
def Obligations.IllegalCommandConsumesOneByte : Prop :=
  ∀ (s : State) (op : Byte) (rest : List Byte), s.free → s.controlFault = none → s.phase = .ready →
    s.rx ++ s.cmd = op :: rest → (op = 0x00#8 ∨ 0x04#8 ≤ op) →
    step s = .next { s with rx := [], cmd := rest, rsp := s.rsp ++ [0x03#8] }

/-- 60_exceptions.md R202 to R205: in READY, each error status is sent exactly for its causes, in the order of
priority. -/
def Obligations.ErrorCausesAndPriority : Prop :=
  ∀ s t : State, s.free → s.controlFault = none → s.phase = .ready → step s = .next t →
    (t.rsp = s.rsp ++ [0x03#8] ↔ ∃ op rest, s.rx ++ s.cmd = op :: rest ∧ (op = 0x00#8 ∨ 0x04#8 ≤ op)) ∧
    (t.rsp = s.rsp ++ [0x02#8] ↔
      s.initd = false ∧ ∃ n len, (decodeCommand (s.rx ++ s.cmd) = .complete (.encrypt n) len ∨
        decodeCommand (s.rx ++ s.cmd) = .complete (.decrypt n) len) ∧ len + n.toNat ≤ (s.rx ++ s.cmd).length) ∧
    (t.rsp = s.rsp ++ [0x01#8] ↔
      (∃ key nonce ctr len, decodeCommand (s.rx ++ s.cmd) = .complete (.init key nonce ctr) len ∧
        (key.length ≠ 32 ∨ nonce.length ≠ 12)) ∨
      (s.initd = true ∧ ∃ len, decodeCommand (s.rx ++ s.cmd) = .complete (.encrypt 0#32) len ∨
        decodeCommand (s.rx ++ s.cmd) = .complete (.decrypt 0#32) len))

/-- 60_exceptions.md R206, R201: whatever the block sends in READY is one of the four status bytes, and where it is an
error no state element has changed and PHASE stays READY. -/
def Obligations.RejectionWritesNoState : Prop :=
  ∀ (s t : State) (b : Byte), s.phase = .ready → step s = .next t → t.rsp = s.rsp ++ [b] →
    b ≤ 0x03#8 ∧ (b ≠ 0x00#8 → s.sameRecord t ∧ t.phase = .ready)

/-- 10_state.md R30: the values of PHASE, its value after reset, and its transitions, the reset event apart. -/
def Obligations.PhaseTransitions : Prop :=
  (Phase.ready.code = 0#2 ∧ Phase.loop.code = 1#2 ∧ Phase.regen.code = 2#2 ∧ Phase.xfer.code = 3#2 ∧
    State.reset.phase = .ready) ∧
  ∀ s t : State, s.resetLine = false → step s = .next t →
    (s.phase = .ready →
      t.phase = .ready ∨
      (t.phase = .loop ∧ s.initd = true ∧ ∃ n len, n ≠ 0#32 ∧
        (decodeCommand (s.rx ++ s.cmd) = .complete (.encrypt n) len ∨
          decodeCommand (s.rx ++ s.cmd) = .complete (.decrypt n) len))) ∧
    (s.phase = .loop → (s.cur = 0#7 ∨ s.cur = 64#7) → t.phase = .regen ∧ t.upc = 0#7) ∧
    (s.phase = .loop → ¬ (s.cur = 0#7 ∨ s.cur = 64#7) →
      (t.bi = s.bi ∧ t.phase = .loop) ∨ (t.bi ≠ s.bi ∧ t.phase = if t.bi = t.bn then .ready else .loop)) ∧
    (s.phase = .regen → t.phase = if s.upc = 84#7 then .xfer else .regen) ∧
    (s.phase = .xfer →
      (t.bi = s.bi ∧ t.phase = .xfer) ∨ (t.bi ≠ s.bi ∧ t.phase = if t.bi = t.bn then .ready else .loop))

/-- 42_block_function.md R149: in REGEN, UPC advances by one to 84 and then REGEN ends in XFER with UPC 0; no step of it
touches a stream or the command context; and REGEN is entered from LOOP only, at UPC 0. -/
def Obligations.RegenSequencerControl : Prop :=
  (∀ s t : State, s.resetLine = false → s.phase = .regen → step s = .next t →
    s.sameStreams t ∧ s.sameContext t ∧
    (s.upc ≠ 84#7 → t.phase = .regen ∧ t.upc = s.upc + 1) ∧ (s.upc = 84#7 → t.phase = .xfer ∧ t.upc = 0#7)) ∧
  (∀ s t : State, step s = .next t → t.phase = .regen → s.phase = .regen ∨ (s.phase = .loop ∧ t.upc = 0#7))

/-- 42_block_function.md R148: the micro-ops at UPC 0 to 82 have no effect other than writing W and KS (and advancing
UPC): they write neither S nor CUR. -/
def Obligations.BlockFunctionLeavesCounterAndCursor : Prop :=
  ∀ s t : State, s.resetLine = false → s.phase = .regen → s.upc ≤ 82#7 → step s = .next t →
    s.sameS t ∧ t.cur = s.cur ∧ t.initd = s.initd ∧ t.phase = s.phase ∧ s.sameContext t ∧ s.sameStreams t ∧
    s.sameInputs t

/-- 70_reset_and_hazards.md R240, 20_memory.md R65: no wait changes the state: where the command is not yet whole, where
the payload of a command rejected with NOT_INITIALIZED is not yet whole, where XORB's data byte is missing, and where the
host takes no response byte, the block stays as it is and sends nothing; only bytes that have arrived may have been taken.
(That the model keeps taken bytes apart, and takes all that have arrived, is log 4; that the wait stands before the whole
step is log 8.) -/
def Obligations.WaitingChangesNothing : Prop :=
  (∀ s : State, s.resetLine = false → s.controlFault = none → s.phase = .ready →
    decodeCommand (s.rx ++ s.cmd) = .incomplete → step s = .next { s with rx := s.rx ++ s.cmd, cmd := [] }) ∧
  (∀ (s : State) (n : Word) (len : Nat), s.resetLine = false → s.controlFault = none → s.phase = .ready →
    s.initd = false →
    decodeCommand (s.rx ++ s.cmd) = .complete (.encrypt n) len ∨
      decodeCommand (s.rx ++ s.cmd) = .complete (.decrypt n) len →
    (s.rx ++ s.cmd).length < len + n.toNat → step s = .next { s with rx := s.rx ++ s.cmd, cmd := [] }) ∧
  (∀ s : State, s.resetLine = false → s.controlFault = none →
    (s.phase = .xfer ∧ s.cur ≠ 64#7) ∨ (s.phase = .loop ∧ s.cur ≠ 0#7 ∧ s.cur ≠ 64#7) → s.rx ++ s.cmd = [] →
    step s = .next s) ∧
  (∀ s t : State, s.resetLine = false → s.rspReady = false →
    s.phase = .ready ∨ s.phase = .xfer ∨ (s.phase = .loop ∧ s.cur ≠ 0#7 ∧ s.cur ≠ 64#7) → step s = .next t →
    s.sameRecord t ∧ t.rsp = s.rsp ∧ s.sameInputs t ∧ t.rx ++ t.cmd = s.rx ++ s.cmd)

/-- 70_reset_and_hazards.md R230, R232; 60_exceptions.md R205: an asserted reset takes precedence over everything: in
one step every state element takes its reset value, nothing is sent, bytes already taken are lost, bytes not yet taken
and bytes already sent stay. (That the model samples reset between steps is log 6.) -/
def Obligations.ResetAbortsAtOnce : Prop :=
  ∀ s : State, s.resetLine = true →
    ∃ t : State, step s = .next t ∧ State.reset.sameRecord t ∧ t.rsp = s.rsp ∧ t.cmd = s.cmd ∧ t.rx = [] ∧
      t.resetLine = false

/-- 60_exceptions.md R209: the step stops with a model fault where CUR is above 64, UPC above 84, or, while a command
runs, BN or BI is unwritten or BI is not below BN (so also where BN is 0; that BI = BN stops is log 7). -/
def Obligations.ImpossiblePositionsFault : Prop :=
  ∀ s : State, s.resetLine = false →
    (64#7 < s.cur → step s = .fault .cursorOutOfRange) ∧
    (s.cur ≤ 64#7 → 84#7 < s.upc → step s = .fault .upcOutOfRange) ∧
    (s.cur ≤ 64#7 → s.upc ≤ 84#7 → s.phase ≠ .ready → (s.bn = none ∨ s.bi = none) →
      step s = .fault (.unwrittenRead .context)) ∧
    (∀ n i : Word, s.cur ≤ 64#7 → s.upc ≤ 84#7 → s.phase ≠ .ready → s.bn = some n → s.bi = some i → n ≤ i →
      step s = .fault .contextOutOfRange) ∧
    (∀ n i : Word, s.bn = some n → s.bi = some i → i < n → s.upc ≤ 84#7 → s.phase = .xfer → s.cur = 64#7 →
      step s = .fault .cursorOutOfRange)

/-! ## Invariants -/

/-- The invariant holds right after reset. -/
def Obligations.ResetMeetsInvariant : Prop := State.reset.Inv

/-- 10_state.md R39: every step keeps the invariant. -/
def Obligations.StepKeepsInvariant : Prop := ∀ s t : State, s.Inv → step s = .next t → t.Inv

/-- 60_exceptions.md R208, R209: from every state that meets the invariant the step answers a next state: no model
fault can arise, and no instruction is refused. -/
def Obligations.InvariantExcludesFaults : Prop := ∀ s : State, s.Inv → ∃ t : State, step s = .next t

/-- 20_memory.md R51: every step, from every state, keeps KS in its canonical form within 0..63. -/
def Obligations.StepKeepsKsCanonical : Prop :=
  ∀ s t : State, Memory.wf s.ks = true → step s = .next t → Memory.wf t.ks = true

/-- 70_reset_and_hazards.md R242: control does not depend on data: from two states that agree on everything but the values
of S, W, KS, the response bytes, and the key, nonce, counter and data bytes on the command stream, a step gives outcomes
that agree on everything but those values. Where reset is asserted the bytes not yet taken must be the same: they stay, and
what was data of the abandoned command is decoded as commands after it (R230, 95_test_vectors.md L2.8.3). -/
def Obligations.ControlIsIndependentOfData : Prop :=
  ∀ s t : State, s.SameControl t → (s.resetLine = true → t.cmd = s.cmd) → sameOutcome (step s) (step t)

/-! ## The block function and the keystream -/

/-- 42_block_function.md R150, R148: from the start of REGEN, the 83 steps of UPC 0 to 82 leave BLOCK(S) in KS and
neither S nor CUR changed. -/
def Obligations.KsIsBlockAfterSer : Prop :=
  ∀ (s : State) (x : Vector Word 16), s.resetLine = false → s.controlFault = none → s.phase = .regen → s.upc = 0#7 →
    (∀ i : Fin 16, s.readS i = some x[i]) →
    ∃ t : State, runSteps 83 s = .next t ∧ (∀ j : Fin 64, memRead t.ks j.val = some (block x)[j]) ∧
      s.sameS t ∧ t.cur = s.cur ∧ t.phase = .regen ∧ t.upc = 83#7 ∧ s.sameStreams t

/-- 43_stream_updater.md R173: the net effect of REGEN, its 85 steps: KS is BLOCK of the S before it, W its words after
the feed-forward, S[12] one more, CUR 0, and the rest unchanged, in XFER. -/
def Obligations.RegenNetEffect : Prop :=
  ∀ (s : State) (x : Vector Word 16), s.resetLine = false → s.controlFault = none → s.phase = .regen → s.upc = 0#7 →
    (∀ i : Fin 16, s.readS i = some x[i]) →
    ∃ t : State, runSteps 85 s = .next t ∧
      (∀ j : Fin 64, memRead t.ks j.val = some (block x)[j]) ∧
      (∀ i : Fin 16, t.w[i] = some (blockWords x)[i]) ∧
      t.readS 12 = some (add32 x[12] 1#32) ∧ t.key = s.key ∧ t.nonce = s.nonce ∧
      t.cur = 0#7 ∧ t.initd = s.initd ∧ t.phase = .xfer ∧ t.upc = 0#7 ∧ s.sameContext t ∧ s.sameStreams t ∧
      s.sameInputs t

/-- 43_stream_updater.md R181, R172, R176: from the test of data byte k of the stream, the block comes to send that byte
XOR the keystream byte at offset k, whether a regeneration is due or not, and stands at offset k + 1 after it. -/
def Obligations.DataByteOutput : Prop :=
  ∀ (kw : Vector Word 8) (nw : Vector Word 3) (c0 : Word) (k : Nat) (s : State) (n i : Word) (d : Byte)
    (rest : List Byte),
    State.Positioned kw nw c0 k s → s.free → s.phase = .loop → s.upc = 0#7 → s.bn = some n → s.bi = some i → i < n →
    s.rx = [] → s.cmd = d :: rest →
    ∃ t : State, Reaches s t ∧ State.Positioned kw nw c0 (k + 1) t ∧
      t.rsp = s.rsp ++ [d ^^^ keystreamByte kw nw c0 k] ∧ t.cmd = rest ∧ t.rx = [] ∧ t.bn = some n ∧
      t.bi = some (i + 1) ∧ t.phase = (if i + 1 = n then .ready else .loop) ∧ t.upc = 0#7 ∧ t.free

/-- 43_stream_updater.md R177, R178, R180, R181: a sequence of ENCRYPT and DECRYPT commands, its data split in any way,
runs to its end: the responses are, for each command, status OK and its data XOR the keystream at the offsets where it
stands, and the block ends at the offset after all the data. -/
def Obligations.CommandSequenceOutput : Prop :=
  ∀ (kw : Vector Word 8) (nw : Vector Word 3) (c0 : Word) (k : Nat) (cs : List (Bool × List Byte)) (s : State)
    (rest : List Byte),
    State.Positioned kw nw c0 k s → s.free → s.phase = .ready → s.upc = 0#7 → s.rx = [] →
    s.cmd = cxCommands cs ++ rest → cxAccepted cs →
    ∃ t : State, Reaches s t ∧ State.Positioned kw nw c0 (k + (cxData cs).length) t ∧
      t.rsp = s.rsp ++ cxResponses kw nw c0 k cs ∧ t.cmd = rest ∧ t.rx = [] ∧ t.phase = .ready ∧ t.upc = 0#7 ∧ t.free

/-- 43_stream_updater.md R177, 70_reset_and_hazards.md R242: an accepted command of n data bytes that starts at cursor c
ends in READY after exactly 1 + n + 86 R(c, n) steps where its bytes have all arrived and its responses are taken: the
acceptance, n XORBs, and for each of the R(c, n) regenerations the LOOP test that fires and 85 micro-ops. -/
def Obligations.CommandEndsAfterCountedSteps : Prop :=
  ∀ (s : State) (dec : Bool) (data rest : List Byte),
    s.Inv → s.free → s.phase = .ready → s.initd = true → s.rx = [] → s.cmd = cxCommand dec data ++ rest →
    data ≠ [] → data.length < 2 ^ 32 →
    ∃ t : State, runSteps (1 + data.length + 86 * regenCount s.cur.toNat data.length) s = .next t ∧
      t.phase = .ready ∧ t.upc = 0#7 ∧ t.cmd = rest ∧ t.rx = [] ∧ t.rsp.length = s.rsp.length + 1 + data.length ∧
      t.bi = some (BitVec.ofNat 32 data.length) ∧ t.bn = some (BitVec.ofNat 32 data.length)

/-- 43_stream_updater.md R182: two blocks at the same offset of the same keystream: whatever the first turns its data
into, the second, given those output bytes split into commands in any way, turns them back into the data. -/
def Obligations.DecryptUndoesEncrypt : Prop :=
  ∀ (kw : Vector Word 8) (nw : Vector Word 3) (c0 : Word) (k : Nat) (cs : List (Bool × List Byte)) (s : State),
    State.Positioned kw nw c0 k s → s.free → s.phase = .ready → s.upc = 0#7 → s.rx = [] → s.cmd = cxCommands cs →
    cxAccepted cs →
    ∃ (outs : List (List Byte)) (t : State), Reaches s t ∧ t.rsp = s.rsp ++ (outs.map (statusOk :: ·)).flatten ∧
      outs.map List.length = cs.map (fun c => c.2.length) ∧
      ∀ (ds : List (Bool × List Byte)) (s' : State),
        State.Positioned kw nw c0 k s' → s'.free → s'.phase = .ready → s'.upc = 0#7 → s'.rx = [] →
        s'.cmd = cxCommands ds → cxAccepted ds → cxData ds = outs.flatten →
        ∃ (outs' : List (List Byte)) (t' : State), Reaches s' t' ∧
          t'.rsp = s'.rsp ++ (outs'.map (statusOk :: ·)).flatten ∧
          outs'.map List.length = ds.map (fun c => c.2.length) ∧ outs'.flatten = cxData cs

/-- 43_stream_updater.md R183, 30_encoding.md R86: the way to stream offset k of the keystream of counter c0: INIT with
counter c0 + floor(k / 64) and, where k mod 64 is not 0, SKIP (k mod 64), an ENCRYPT of that many zero bytes. Whatever the
block did before, what it sends for the commands after it is their data XOR the keystream of c0 from offset k on; SKIP's
own response is its status and k mod 64 bytes, which the host discards. -/
def Obligations.RandomAccessIntoKeystream : Prop :=
  ∀ (s : State) (key nonce : List Byte) (c0 : Word) (k : Nat) (cs : List (Bool × List Byte)) (rest : List Byte),
    let kw : Vector Word 8 := Vector.ofFn fun i => wordAt key i.val
    let nw : Vector Word 3 := Vector.ofFn fun i => wordAt nonce i.val
    let skip : List Byte := if k % 64 = 0 then [] else cxCommand false (List.replicate (k % 64) 0)
    key.length = 32 → nonce.length = 12 → s.free → s.controlFault = none → s.phase = .ready → s.upc = 0#7 → s.rx = [] →
    s.cmd = encode (.init key nonce (c0 + BitVec.ofNat 32 (k / 64))) ++ (skip ++ (cxCommands cs ++ rest)) →
    cxAccepted cs →
    ∃ (t : State) (skipped : List Byte), Reaches s t ∧
      t.rsp = s.rsp ++ (statusOk :: (skipped ++ cxResponses kw nw c0 k cs)) ∧
      skipped.length = (if k % 64 = 0 then 0 else 1 + k % 64) ∧
      State.Positioned kw nw (c0 + BitVec.ofNat 32 (k / 64)) (k % 64 + (cxData cs).length) t ∧
      t.cmd = rest ∧ t.rx = [] ∧ t.phase = .ready ∧ t.upc = 0#7 ∧ t.free
end

