-- ==== Sys2Proof/Laws/Memory.lean ====
section
/-! SUPPORT. Laws/Memory.lean: reading and writing the keystream buffer, and that every memory operation keeps the
canonical form. -/

namespace Sys2Proof.Machine

/-! ## Reading after writing -/

theorem lookup_memWrite_same (m : Memory) (j : Nat) (v : Byte) : lookup (memWrite m j v) j = some v := by
  induction m with
  | nil => simp [memWrite, lookup]
  | cons c rest ih =>
    obtain ⟨a, x⟩ := c
    simp only [memWrite]
    split_ifs with h1 h2
    · simp [lookup]
    · simp [lookup]
    · simp [lookup, Ne.symm h2, ih]

theorem lookup_memWrite_other (m : Memory) (j k : Nat) (v : Byte) (h : k ≠ j) :
    lookup (memWrite m j v) k = lookup m k := by
  induction m with
  | nil => simp [memWrite, lookup, Ne.symm h]
  | cons c rest ih =>
    obtain ⟨a, x⟩ := c
    simp only [memWrite]
    split_ifs with h1 h2
    · simp [lookup, Ne.symm h]
    · subst h2
      simp [lookup, Ne.symm h]
    · simp [lookup, ih]

theorem memRead_memWrite_same (m : Memory) (j : Nat) (v : Byte) (h : j < 64) : memRead (memWrite m j v) j = some v := by
  simp [memRead, Config.blockBytes, h, lookup_memWrite_same]

theorem memRead_memWrite_other (m : Memory) (j k : Nat) (v : Byte) (h : k ≠ j) :
    memRead (memWrite m j v) k = memRead m k := by
  simp [memRead, lookup_memWrite_other m j k v h]

theorem memRead_memWrite (m : Memory) (j k : Nat) (v : Byte) (hj : j < 64) :
    memRead (memWrite m j v) k = if k = j then some v else memRead m k := by
  split_ifs with h
  · subst h
    exact memRead_memWrite_same m k v hj
  · exact memRead_memWrite_other m j k v h

/-- No address outside 0..63 exists (20_memory.md R51). -/
theorem memRead_outside (m : Memory) (j : Nat) (h : 64 ≤ j) : memRead m j = none := by
  simp [memRead, Config.blockBytes, Nat.not_lt.mpr h]

/-- A word written at `a`: its byte `b` stands at `a + b`, and nothing else changes. -/
theorem memRead_memWriteWord (m : Memory) (a k : Nat) (w : Word) (h : a + 4 ≤ 64) :
    memRead (memWriteWord m a w) k = if a ≤ k ∧ k < a + 4 then some (byteOf (k - a) w) else memRead m k := by
  simp only [memWriteWord]
  rw [memRead_memWrite _ _ _ _ (by omega), memRead_memWrite _ _ _ _ (by omega), memRead_memWrite _ _ _ _ (by omega),
    memRead_memWrite _ _ _ _ (by omega)]
  by_cases h3 : k = a + 3
  · subst h3; simp
  by_cases h2 : k = a + 2
  · subst h2; simp
  by_cases h1 : k = a + 1
  · subst h1; simp
  by_cases h0 : k = a
  · subst h0; simp
  · have : ¬ (a ≤ k ∧ k < a + 4) := by omega
    simp [h0, h1, h2, h3, this]

/-- Words written from `a` on: word `i` stands at a+4i..a+4i+3, and nothing else changes. -/
theorem memRead_memWriteWords (ws : List Word) (m : Memory) (a k : Nat) (h : a + 4 * ws.length ≤ 64) :
    memRead (memWriteWords m a ws) k =
      if a ≤ k ∧ k < a + 4 * ws.length then some (byteOf ((k - a) % 4) (ws.getD ((k - a) / 4) 0)) else memRead m k := by
  induction ws generalizing m a with
  | nil =>
    have : ¬ (a ≤ k ∧ k < a + 4 * ([] : List Word).length) := by simp
    simp [memWriteWords]
  | cons w ws ih =>
    simp only [List.length_cons] at h
    rw [memWriteWords, ih _ _ (by omega), memRead_memWriteWord _ _ _ _ (by omega)]
    simp only [List.length_cons]
    by_cases h1 : a + 4 ≤ k ∧ k < a + 4 + 4 * ws.length
    · have h2 : a ≤ k ∧ k < a + 4 * (ws.length + 1) := by omega
      have e1 : (k - a) % 4 = (k - (a + 4)) % 4 := by omega
      have e2 : (k - a) / 4 = (k - (a + 4)) / 4 + 1 := by omega
      simp only [h1, h2, and_self, if_true, e1, e2, List.getD_cons_succ]
    · by_cases h3 : a ≤ k ∧ k < a + 4
      · have h2 : a ≤ k ∧ k < a + 4 * (ws.length + 1) := by omega
        have e1 : (k - a) % 4 = k - a := by omega
        have e2 : (k - a) / 4 = 0 := by omega
        simp only [h1, h2, h3, and_self, if_true, if_false, e1, e2, List.getD_cons_zero]
      · have h2 : ¬ (a ≤ k ∧ k < a + 4 * (ws.length + 1)) := by omega
        simp only [h1, h2, h3, if_false]

/-- Serialization leaves the bytes of the words in KS, the least significant first (20_memory.md R55). -/
theorem memRead_serialize (m : Memory) (x : Vector Word 16) (j : Fin 64) :
    memRead (serialize m x) j.val = some (serialByte x j) := by
  have hl : x.toList.length = 16 := by simp
  rw [serialize, memRead_memWriteWords _ _ _ _ (by omega)]
  have h : (0 ≤ j.val ∧ j.val < 0 + 4 * x.toList.length) := by omega
  have hd : j.val / 4 < x.toList.length := by omega
  rw [if_pos h]
  simp only [serialByte, Nat.sub_zero, List.getD_eq_getElem?_getD, List.getElem?_eq_getElem hd, Option.getD_some]
  simp

/-! ## The canonical form -/

theorem rising_memWrite_head (c : Host.Cell) (m : Memory) (j : Nat) (v : Byte) (hc : c.1 < j)
    (h : Memory.rising (c :: m) = true) : Memory.rising (c :: memWrite m j v) = true := by
  induction m generalizing c with
  | nil => simp [memWrite, Memory.rising, hc]
  | cons d rest ih =>
    obtain ⟨a, x⟩ := d
    simp only [Memory.rising, Bool.and_eq_true, decide_eq_true_eq] at h
    simp only [memWrite]
    split_ifs with h1 h2
    · simp [Memory.rising, hc, h1, h.2]
    · subst h2
      have h3 := h.2
      cases rest with
      | nil => simp [Memory.rising, hc]
      | cons e rest =>
        simp only [Memory.rising, Bool.and_eq_true, decide_eq_true_eq] at h3 ⊢
        exact ⟨hc, h3⟩
    · have h3 := ih (a, x) (by simp only; omega) h.2
      simp only [Memory.rising, Bool.and_eq_true, decide_eq_true_eq]
      exact ⟨h.1, h3⟩

theorem rising_memWrite (m : Memory) (j : Nat) (v : Byte) (h : Memory.rising m = true) :
    Memory.rising (memWrite m j v) = true := by
  cases m with
  | nil => simp [memWrite, Memory.rising]
  | cons c rest =>
    obtain ⟨a, x⟩ := c
    simp only [memWrite]
    split_ifs with h1 h2
    · simp [Memory.rising, h1, h]
    · subst h2
      cases rest with
      | nil => simp [Memory.rising]
      | cons e rest => simpa [Memory.rising] using h
    · exact rising_memWrite_head (a, x) rest j v (by simp only; omega) h

theorem addresses_memWrite (m : Memory) (j : Nat) (v : Byte) (hj : j < Config.blockBytes)
    (h : (m.all fun c => decide (c.1 < Config.blockBytes)) = true) :
    ((memWrite m j v).all fun c => decide (c.1 < Config.blockBytes)) = true := by
  induction m with
  | nil => simp [memWrite, hj]
  | cons c rest ih =>
    obtain ⟨a, x⟩ := c
    simp only [List.all_cons, Bool.and_eq_true, decide_eq_true_eq] at h
    simp only [memWrite]
    split_ifs
    · simp only [List.all_cons, Bool.and_eq_true, decide_eq_true_eq]
      exact ⟨hj, h.1, h.2⟩
    · simp only [List.all_cons, Bool.and_eq_true, decide_eq_true_eq]
      exact ⟨hj, h.2⟩
    · simp only [List.all_cons, Bool.and_eq_true, decide_eq_true_eq]
      exact ⟨h.1, ih h.2⟩

/-- One byte written within 0..63 keeps the canonical form. -/
theorem memWrite_wf (m : Memory) (j : Nat) (v : Byte) (hj : j < 64) (h : Memory.wf m = true) :
    Memory.wf (memWrite m j v) = true := by
  simp only [Memory.wf, Bool.and_eq_true] at h ⊢
  exact ⟨rising_memWrite m j v h.1, addresses_memWrite m j v hj h.2⟩

theorem memWriteWord_wf (m : Memory) (a : Nat) (w : Word) (ha : a + 4 ≤ 64) (h : Memory.wf m = true) :
    Memory.wf (memWriteWord m a w) = true := by
  unfold memWriteWord
  exact memWrite_wf _ _ _ (by omega) (memWrite_wf _ _ _ (by omega) (memWrite_wf _ _ _ (by omega)
    (memWrite_wf _ _ _ (by omega) h)))

theorem memWriteWords_wf (ws : List Word) (m : Memory) (a : Nat) (ha : a + 4 * ws.length ≤ 64)
    (h : Memory.wf m = true) : Memory.wf (memWriteWords m a ws) = true := by
  induction ws generalizing m a with
  | nil => exact h
  | cons w ws ih =>
    simp only [List.length_cons] at ha
    exact ih _ _ (by omega) (memWriteWord_wf m a w (by omega) h)

/-- Serialization keeps the canonical form. -/
theorem serialize_wf (m : Memory) (x : Vector Word 16) (h : Memory.wf m = true) :
    Memory.wf (serialize m x) = true :=
  memWriteWords_wf _ _ _ (by simp) h

/-- Filling the unwritten bytes keeps the canonical form. -/
theorem fillKs_wf (n : Nat) (m : Memory) (hn : n ≤ 64) (h : Memory.wf m = true) : Memory.wf (fillKs n m) = true := by
  induction n generalizing m with
  | zero => exact h
  | succ n ih =>
    simp only [fillKs]
    split_ifs
    · exact ih _ (by omega) h
    · exact ih _ (by omega) (memWrite_wf _ _ _ (by omega) h)

/-- The memory of the reset state is in canonical form. -/
theorem reset_memory_wf : Memory.wf State.reset.ks = true := by decide

end Sys2Proof.Machine
end

