-- ==== Sys2Proof/Laws/Registers.lean ====
section
/-! SUPPORT. Laws/Registers.lean: reading whole register files, and S as its four parts. -/

namespace Sys2Proof.Machine

@[simp] theorem written_getElem {n : Nat} (x : Vector Word n) (i : Nat) (h : i < n) : (written x)[i] = some x[i] := by
  simp [written]

@[simp] theorem gather_written {n : Nat} (x : Vector Word n) : gather (written x) = some x := by
  have h : ∀ i : Fin n, ((written x)[i]).isSome = true := by intro i; simp
  rw [gather, if_pos h]
  congr 1
  ext i hi
  simp

/-- A register file is read whole exactly where every word is written. -/
theorem gather_eq_some {n : Nat} (f : Vector (Option Word) n) (x : Vector Word n) :
    gather f = some x ↔ f = written x := by
  constructor
  · intro h
    unfold gather at h
    split_ifs at h with hs
    simp only [Option.some.injEq] at h
    subst h
    ext i hi
    have h1 := hs ⟨i, hi⟩
    simp only [Fin.getElem_fin] at h1
    obtain ⟨y, hy⟩ := Option.isSome_iff_exists.mp h1
    simp [hy]
  · rintro rfl
    exact gather_written x

theorem gather_isSome {n : Nat} (f : Vector (Option Word) n) :
    (gather f).isSome = true ↔ ∀ i : Fin n, (f[i]).isSome = true := by
  unfold gather
  split_ifs with h <;> simp_all

theorem written_injective {n : Nat} {x y : Vector Word n} (h : written x = written y) : x = y := by
  have := congrArg gather h
  simpa using this

/-- Setting a word of a written register file. -/
theorem written_set {n : Nat} (x : Vector Word n) (i : Nat) (h : i < n) (v : Word) :
    (written x).set i (some v) = written (x.set i v) := by
  ext j hj
  by_cases e : i = j <;> simp [e]

/-- S read whole is the constants, the key, the counter and the nonce. -/
theorem allS_written (s : State) (kw : Vector Word 8) (c : Word) (nw : Vector Word 3) (hk : s.key = written kw)
    (hc : s.ctr = some c) (hn : s.nonce = written nw) : s.allS = some (cipherWords kw c nw) := by
  rw [State.allS, gather_eq_some]
  ext i hi : 1
  simp only [State.sFile, hk, hc, hn, cipherWords, written_getElem]
  interval_cases i <;> rfl

/-- S depends on the key, the counter and the nonce only. -/
theorem sFile_congr (s t : State) (hk : s.key = t.key) (hc : s.ctr = t.ctr) (hn : s.nonce = t.nonce) :
    s.sFile = t.sFile := by
  simp only [State.sFile, hk, hc, hn]

theorem readS_congr (s t : State) (hk : s.key = t.key) (hc : s.ctr = t.ctr) (hn : s.nonce = t.nonce) (i : Fin 16) :
    s.readS i = t.readS i := by
  simp only [State.readS, sFile_congr s t hk hc hn]

end Sys2Proof.Machine
end

