-- ==== Sys2Proof/Laws/State.lean ====
section
/-! SUPPORT. Laws/State.lean: one lemma per field per update of the state, each true by rfl, so that no proof unfolds a
record update. -/

namespace Sys2Proof.Machine

/-! ## send -/

@[simp] theorem State.send_key (v : Byte) (s : State) : (State.send v s).key = s.key := rfl
@[simp] theorem State.send_ctr (v : Byte) (s : State) : (State.send v s).ctr = s.ctr := rfl
@[simp] theorem State.send_nonce (v : Byte) (s : State) : (State.send v s).nonce = s.nonce := rfl
@[simp] theorem State.send_w (v : Byte) (s : State) : (State.send v s).w = s.w := rfl
@[simp] theorem State.send_ks (v : Byte) (s : State) : (State.send v s).ks = s.ks := rfl
@[simp] theorem State.send_cur (v : Byte) (s : State) : (State.send v s).cur = s.cur := rfl
@[simp] theorem State.send_initd (v : Byte) (s : State) : (State.send v s).initd = s.initd := rfl
@[simp] theorem State.send_phase (v : Byte) (s : State) : (State.send v s).phase = s.phase := rfl
@[simp] theorem State.send_upc (v : Byte) (s : State) : (State.send v s).upc = s.upc := rfl
@[simp] theorem State.send_op (v : Byte) (s : State) : (State.send v s).op = s.op := rfl
@[simp] theorem State.send_bn (v : Byte) (s : State) : (State.send v s).bn = s.bn := rfl
@[simp] theorem State.send_bi (v : Byte) (s : State) : (State.send v s).bi = s.bi := rfl
@[simp] theorem State.send_cmd (v : Byte) (s : State) : (State.send v s).cmd = s.cmd := rfl
@[simp] theorem State.send_rx (v : Byte) (s : State) : (State.send v s).rx = s.rx := rfl
@[simp] theorem State.send_rsp (v : Byte) (s : State) : (State.send v s).rsp = s.rsp ++ [v] := rfl
@[simp] theorem State.send_rspReady (v : Byte) (s : State) : (State.send v s).rspReady = s.rspReady := rfl
@[simp] theorem State.send_resetLine (v : Byte) (s : State) : (State.send v s).resetLine = s.resetLine := rfl

/-! ## consumed -/

@[simp] theorem State.consumed_key (s : State) : (State.consumed s).key = s.key := rfl
@[simp] theorem State.consumed_ctr (s : State) : (State.consumed s).ctr = s.ctr := rfl
@[simp] theorem State.consumed_nonce (s : State) : (State.consumed s).nonce = s.nonce := rfl
@[simp] theorem State.consumed_w (s : State) : (State.consumed s).w = s.w := rfl
@[simp] theorem State.consumed_ks (s : State) : (State.consumed s).ks = s.ks := rfl
@[simp] theorem State.consumed_cur (s : State) : (State.consumed s).cur = s.cur := rfl
@[simp] theorem State.consumed_initd (s : State) : (State.consumed s).initd = s.initd := rfl
@[simp] theorem State.consumed_phase (s : State) : (State.consumed s).phase = s.phase := rfl
@[simp] theorem State.consumed_upc (s : State) : (State.consumed s).upc = s.upc := rfl
@[simp] theorem State.consumed_op (s : State) : (State.consumed s).op = s.op := rfl
@[simp] theorem State.consumed_bn (s : State) : (State.consumed s).bn = s.bn := rfl
@[simp] theorem State.consumed_bi (s : State) : (State.consumed s).bi = s.bi := rfl
@[simp] theorem State.consumed_cmd (s : State) : (State.consumed s).cmd = s.cmd := rfl
@[simp] theorem State.consumed_rx (s : State) : (State.consumed s).rx = [] := rfl
@[simp] theorem State.consumed_rsp (s : State) : (State.consumed s).rsp = s.rsp := rfl
@[simp] theorem State.consumed_rspReady (s : State) : (State.consumed s).rspReady = s.rspReady := rfl
@[simp] theorem State.consumed_resetLine (s : State) : (State.consumed s).resetLine = s.resetLine := rfl

/-! ## taken -/

@[simp] theorem State.taken_key (r c : List Byte) (s : State) : (State.taken r c s).key = s.key := rfl
@[simp] theorem State.taken_ctr (r c : List Byte) (s : State) : (State.taken r c s).ctr = s.ctr := rfl
@[simp] theorem State.taken_nonce (r c : List Byte) (s : State) : (State.taken r c s).nonce = s.nonce := rfl
@[simp] theorem State.taken_w (r c : List Byte) (s : State) : (State.taken r c s).w = s.w := rfl
@[simp] theorem State.taken_ks (r c : List Byte) (s : State) : (State.taken r c s).ks = s.ks := rfl
@[simp] theorem State.taken_cur (r c : List Byte) (s : State) : (State.taken r c s).cur = s.cur := rfl
@[simp] theorem State.taken_initd (r c : List Byte) (s : State) : (State.taken r c s).initd = s.initd := rfl
@[simp] theorem State.taken_phase (r c : List Byte) (s : State) : (State.taken r c s).phase = s.phase := rfl
@[simp] theorem State.taken_upc (r c : List Byte) (s : State) : (State.taken r c s).upc = s.upc := rfl
@[simp] theorem State.taken_op (r c : List Byte) (s : State) : (State.taken r c s).op = s.op := rfl
@[simp] theorem State.taken_bn (r c : List Byte) (s : State) : (State.taken r c s).bn = s.bn := rfl
@[simp] theorem State.taken_bi (r c : List Byte) (s : State) : (State.taken r c s).bi = s.bi := rfl
@[simp] theorem State.taken_cmd (r c : List Byte) (s : State) : (State.taken r c s).cmd = c := rfl
@[simp] theorem State.taken_rx (r c : List Byte) (s : State) : (State.taken r c s).rx = r := rfl
@[simp] theorem State.taken_rsp (r c : List Byte) (s : State) : (State.taken r c s).rsp = s.rsp := rfl
@[simp] theorem State.taken_rspReady (r c : List Byte) (s : State) : (State.taken r c s).rspReady = s.rspReady := rfl
@[simp] theorem State.taken_resetLine (r c : List Byte) (s : State) : (State.taken r c s).resetLine = s.resetLine := rfl

/-! ## setInitd -/

@[simp] theorem State.setInitd_key (s : State) : (State.setInitd s).key = s.key := rfl
@[simp] theorem State.setInitd_ctr (s : State) : (State.setInitd s).ctr = s.ctr := rfl
@[simp] theorem State.setInitd_nonce (s : State) : (State.setInitd s).nonce = s.nonce := rfl
@[simp] theorem State.setInitd_w (s : State) : (State.setInitd s).w = s.w := rfl
@[simp] theorem State.setInitd_ks (s : State) : (State.setInitd s).ks = s.ks := rfl
@[simp] theorem State.setInitd_cur (s : State) : (State.setInitd s).cur = s.cur := rfl
@[simp] theorem State.setInitd_initd (s : State) : (State.setInitd s).initd = true := rfl
@[simp] theorem State.setInitd_phase (s : State) : (State.setInitd s).phase = s.phase := rfl
@[simp] theorem State.setInitd_upc (s : State) : (State.setInitd s).upc = s.upc := rfl
@[simp] theorem State.setInitd_op (s : State) : (State.setInitd s).op = s.op := rfl
@[simp] theorem State.setInitd_bn (s : State) : (State.setInitd s).bn = s.bn := rfl
@[simp] theorem State.setInitd_bi (s : State) : (State.setInitd s).bi = s.bi := rfl
@[simp] theorem State.setInitd_cmd (s : State) : (State.setInitd s).cmd = s.cmd := rfl
@[simp] theorem State.setInitd_rx (s : State) : (State.setInitd s).rx = s.rx := rfl
@[simp] theorem State.setInitd_rsp (s : State) : (State.setInitd s).rsp = s.rsp := rfl
@[simp] theorem State.setInitd_rspReady (s : State) : (State.setInitd s).rspReady = s.rspReady := rfl
@[simp] theorem State.setInitd_resetLine (s : State) : (State.setInitd s).resetLine = s.resetLine := rfl

/-! ## loadCipher -/

@[simp] theorem State.loadCipher_key (key nonce : List Byte) (ctr : Word) (s : State) : (State.loadCipher key nonce ctr s).key = Vector.ofFn fun i => some (wordAt key i.val) := rfl
@[simp] theorem State.loadCipher_ctr (key nonce : List Byte) (ctr : Word) (s : State) : (State.loadCipher key nonce ctr s).ctr = some ctr := rfl
@[simp] theorem State.loadCipher_nonce (key nonce : List Byte) (ctr : Word) (s : State) : (State.loadCipher key nonce ctr s).nonce = Vector.ofFn fun i => some (wordAt nonce i.val) := rfl
@[simp] theorem State.loadCipher_w (key nonce : List Byte) (ctr : Word) (s : State) : (State.loadCipher key nonce ctr s).w = s.w := rfl
@[simp] theorem State.loadCipher_ks (key nonce : List Byte) (ctr : Word) (s : State) : (State.loadCipher key nonce ctr s).ks = s.ks := rfl
@[simp] theorem State.loadCipher_cur (key nonce : List Byte) (ctr : Word) (s : State) : (State.loadCipher key nonce ctr s).cur = 0 := rfl
@[simp] theorem State.loadCipher_initd (key nonce : List Byte) (ctr : Word) (s : State) : (State.loadCipher key nonce ctr s).initd = true := rfl
@[simp] theorem State.loadCipher_phase (key nonce : List Byte) (ctr : Word) (s : State) : (State.loadCipher key nonce ctr s).phase = s.phase := rfl
@[simp] theorem State.loadCipher_upc (key nonce : List Byte) (ctr : Word) (s : State) : (State.loadCipher key nonce ctr s).upc = s.upc := rfl
@[simp] theorem State.loadCipher_op (key nonce : List Byte) (ctr : Word) (s : State) : (State.loadCipher key nonce ctr s).op = s.op := rfl
@[simp] theorem State.loadCipher_bn (key nonce : List Byte) (ctr : Word) (s : State) : (State.loadCipher key nonce ctr s).bn = s.bn := rfl
@[simp] theorem State.loadCipher_bi (key nonce : List Byte) (ctr : Word) (s : State) : (State.loadCipher key nonce ctr s).bi = s.bi := rfl
@[simp] theorem State.loadCipher_cmd (key nonce : List Byte) (ctr : Word) (s : State) : (State.loadCipher key nonce ctr s).cmd = s.cmd := rfl
@[simp] theorem State.loadCipher_rx (key nonce : List Byte) (ctr : Word) (s : State) : (State.loadCipher key nonce ctr s).rx = s.rx := rfl
@[simp] theorem State.loadCipher_rsp (key nonce : List Byte) (ctr : Word) (s : State) : (State.loadCipher key nonce ctr s).rsp = s.rsp := rfl
@[simp] theorem State.loadCipher_rspReady (key nonce : List Byte) (ctr : Word) (s : State) : (State.loadCipher key nonce ctr s).rspReady = s.rspReady := rfl
@[simp] theorem State.loadCipher_resetLine (key nonce : List Byte) (ctr : Word) (s : State) : (State.loadCipher key nonce ctr s).resetLine = s.resetLine := rfl

/-! ## accept -/

@[simp] theorem State.accept_key (opcode : Byte) (n : Word) (s : State) : (State.accept opcode n s).key = s.key := rfl
@[simp] theorem State.accept_ctr (opcode : Byte) (n : Word) (s : State) : (State.accept opcode n s).ctr = s.ctr := rfl
@[simp] theorem State.accept_nonce (opcode : Byte) (n : Word) (s : State) : (State.accept opcode n s).nonce = s.nonce := rfl
@[simp] theorem State.accept_w (opcode : Byte) (n : Word) (s : State) : (State.accept opcode n s).w = s.w := rfl
@[simp] theorem State.accept_ks (opcode : Byte) (n : Word) (s : State) : (State.accept opcode n s).ks = s.ks := rfl
@[simp] theorem State.accept_cur (opcode : Byte) (n : Word) (s : State) : (State.accept opcode n s).cur = s.cur := rfl
@[simp] theorem State.accept_initd (opcode : Byte) (n : Word) (s : State) : (State.accept opcode n s).initd = s.initd := rfl
@[simp] theorem State.accept_phase (opcode : Byte) (n : Word) (s : State) : (State.accept opcode n s).phase = .loop := rfl
@[simp] theorem State.accept_upc (opcode : Byte) (n : Word) (s : State) : (State.accept opcode n s).upc = s.upc := rfl
@[simp] theorem State.accept_op (opcode : Byte) (n : Word) (s : State) : (State.accept opcode n s).op = some opcode := rfl
@[simp] theorem State.accept_bn (opcode : Byte) (n : Word) (s : State) : (State.accept opcode n s).bn = some n := rfl
@[simp] theorem State.accept_bi (opcode : Byte) (n : Word) (s : State) : (State.accept opcode n s).bi = some 0 := rfl
@[simp] theorem State.accept_cmd (opcode : Byte) (n : Word) (s : State) : (State.accept opcode n s).cmd = s.cmd := rfl
@[simp] theorem State.accept_rx (opcode : Byte) (n : Word) (s : State) : (State.accept opcode n s).rx = s.rx := rfl
@[simp] theorem State.accept_rsp (opcode : Byte) (n : Word) (s : State) : (State.accept opcode n s).rsp = s.rsp := rfl
@[simp] theorem State.accept_rspReady (opcode : Byte) (n : Word) (s : State) : (State.accept opcode n s).rspReady = s.rspReady := rfl
@[simp] theorem State.accept_resetLine (opcode : Byte) (n : Word) (s : State) : (State.accept opcode n s).resetLine = s.resetLine := rfl

/-! ## upcNext -/

@[simp] theorem State.upcNext_key (s : State) : (State.upcNext s).key = s.key := rfl
@[simp] theorem State.upcNext_ctr (s : State) : (State.upcNext s).ctr = s.ctr := rfl
@[simp] theorem State.upcNext_nonce (s : State) : (State.upcNext s).nonce = s.nonce := rfl
@[simp] theorem State.upcNext_w (s : State) : (State.upcNext s).w = s.w := rfl
@[simp] theorem State.upcNext_ks (s : State) : (State.upcNext s).ks = s.ks := rfl
@[simp] theorem State.upcNext_cur (s : State) : (State.upcNext s).cur = s.cur := rfl
@[simp] theorem State.upcNext_initd (s : State) : (State.upcNext s).initd = s.initd := rfl
@[simp] theorem State.upcNext_phase (s : State) : (State.upcNext s).phase = s.phase := rfl
@[simp] theorem State.upcNext_upc (s : State) : (State.upcNext s).upc = s.upc + 1 := rfl
@[simp] theorem State.upcNext_op (s : State) : (State.upcNext s).op = s.op := rfl
@[simp] theorem State.upcNext_bn (s : State) : (State.upcNext s).bn = s.bn := rfl
@[simp] theorem State.upcNext_bi (s : State) : (State.upcNext s).bi = s.bi := rfl
@[simp] theorem State.upcNext_cmd (s : State) : (State.upcNext s).cmd = s.cmd := rfl
@[simp] theorem State.upcNext_rx (s : State) : (State.upcNext s).rx = s.rx := rfl
@[simp] theorem State.upcNext_rsp (s : State) : (State.upcNext s).rsp = s.rsp := rfl
@[simp] theorem State.upcNext_rspReady (s : State) : (State.upcNext s).rspReady = s.rspReady := rfl
@[simp] theorem State.upcNext_resetLine (s : State) : (State.upcNext s).resetLine = s.resetLine := rfl

/-! ## regenEnd -/

@[simp] theorem State.regenEnd_key (s : State) : (State.regenEnd s).key = s.key := rfl
@[simp] theorem State.regenEnd_ctr (s : State) : (State.regenEnd s).ctr = s.ctr := rfl
@[simp] theorem State.regenEnd_nonce (s : State) : (State.regenEnd s).nonce = s.nonce := rfl
@[simp] theorem State.regenEnd_w (s : State) : (State.regenEnd s).w = s.w := rfl
@[simp] theorem State.regenEnd_ks (s : State) : (State.regenEnd s).ks = s.ks := rfl
@[simp] theorem State.regenEnd_cur (s : State) : (State.regenEnd s).cur = s.cur := rfl
@[simp] theorem State.regenEnd_initd (s : State) : (State.regenEnd s).initd = s.initd := rfl
@[simp] theorem State.regenEnd_phase (s : State) : (State.regenEnd s).phase = .xfer := rfl
@[simp] theorem State.regenEnd_upc (s : State) : (State.regenEnd s).upc = 0 := rfl
@[simp] theorem State.regenEnd_op (s : State) : (State.regenEnd s).op = s.op := rfl
@[simp] theorem State.regenEnd_bn (s : State) : (State.regenEnd s).bn = s.bn := rfl
@[simp] theorem State.regenEnd_bi (s : State) : (State.regenEnd s).bi = s.bi := rfl
@[simp] theorem State.regenEnd_cmd (s : State) : (State.regenEnd s).cmd = s.cmd := rfl
@[simp] theorem State.regenEnd_rx (s : State) : (State.regenEnd s).rx = s.rx := rfl
@[simp] theorem State.regenEnd_rsp (s : State) : (State.regenEnd s).rsp = s.rsp := rfl
@[simp] theorem State.regenEnd_rspReady (s : State) : (State.regenEnd s).rspReady = s.rspReady := rfl
@[simp] theorem State.regenEnd_resetLine (s : State) : (State.regenEnd s).resetLine = s.resetLine := rfl

/-! ## regenStart -/

@[simp] theorem State.regenStart_key (s : State) : (State.regenStart s).key = s.key := rfl
@[simp] theorem State.regenStart_ctr (s : State) : (State.regenStart s).ctr = s.ctr := rfl
@[simp] theorem State.regenStart_nonce (s : State) : (State.regenStart s).nonce = s.nonce := rfl
@[simp] theorem State.regenStart_w (s : State) : (State.regenStart s).w = s.w := rfl
@[simp] theorem State.regenStart_ks (s : State) : (State.regenStart s).ks = s.ks := rfl
@[simp] theorem State.regenStart_cur (s : State) : (State.regenStart s).cur = s.cur := rfl
@[simp] theorem State.regenStart_initd (s : State) : (State.regenStart s).initd = s.initd := rfl
@[simp] theorem State.regenStart_phase (s : State) : (State.regenStart s).phase = .regen := rfl
@[simp] theorem State.regenStart_upc (s : State) : (State.regenStart s).upc = 0 := rfl
@[simp] theorem State.regenStart_op (s : State) : (State.regenStart s).op = s.op := rfl
@[simp] theorem State.regenStart_bn (s : State) : (State.regenStart s).bn = s.bn := rfl
@[simp] theorem State.regenStart_bi (s : State) : (State.regenStart s).bi = s.bi := rfl
@[simp] theorem State.regenStart_cmd (s : State) : (State.regenStart s).cmd = s.cmd := rfl
@[simp] theorem State.regenStart_rx (s : State) : (State.regenStart s).rx = s.rx := rfl
@[simp] theorem State.regenStart_rsp (s : State) : (State.regenStart s).rsp = s.rsp := rfl
@[simp] theorem State.regenStart_rspReady (s : State) : (State.regenStart s).rspReady = s.rspReady := rfl
@[simp] theorem State.regenStart_resetLine (s : State) : (State.regenStart s).resetLine = s.resetLine := rfl

/-! ## writeW -/

@[simp] theorem State.writeW_key (f : Vector (Option Word) 16) (s : State) : (State.writeW f s).key = s.key := rfl
@[simp] theorem State.writeW_ctr (f : Vector (Option Word) 16) (s : State) : (State.writeW f s).ctr = s.ctr := rfl
@[simp] theorem State.writeW_nonce (f : Vector (Option Word) 16) (s : State) : (State.writeW f s).nonce = s.nonce := rfl
@[simp] theorem State.writeW_w (f : Vector (Option Word) 16) (s : State) : (State.writeW f s).w = f := rfl
@[simp] theorem State.writeW_ks (f : Vector (Option Word) 16) (s : State) : (State.writeW f s).ks = s.ks := rfl
@[simp] theorem State.writeW_cur (f : Vector (Option Word) 16) (s : State) : (State.writeW f s).cur = s.cur := rfl
@[simp] theorem State.writeW_initd (f : Vector (Option Word) 16) (s : State) : (State.writeW f s).initd = s.initd := rfl
@[simp] theorem State.writeW_phase (f : Vector (Option Word) 16) (s : State) : (State.writeW f s).phase = s.phase := rfl
@[simp] theorem State.writeW_upc (f : Vector (Option Word) 16) (s : State) : (State.writeW f s).upc = s.upc := rfl
@[simp] theorem State.writeW_op (f : Vector (Option Word) 16) (s : State) : (State.writeW f s).op = s.op := rfl
@[simp] theorem State.writeW_bn (f : Vector (Option Word) 16) (s : State) : (State.writeW f s).bn = s.bn := rfl
@[simp] theorem State.writeW_bi (f : Vector (Option Word) 16) (s : State) : (State.writeW f s).bi = s.bi := rfl
@[simp] theorem State.writeW_cmd (f : Vector (Option Word) 16) (s : State) : (State.writeW f s).cmd = s.cmd := rfl
@[simp] theorem State.writeW_rx (f : Vector (Option Word) 16) (s : State) : (State.writeW f s).rx = s.rx := rfl
@[simp] theorem State.writeW_rsp (f : Vector (Option Word) 16) (s : State) : (State.writeW f s).rsp = s.rsp := rfl
@[simp] theorem State.writeW_rspReady (f : Vector (Option Word) 16) (s : State) : (State.writeW f s).rspReady = s.rspReady := rfl
@[simp] theorem State.writeW_resetLine (f : Vector (Option Word) 16) (s : State) : (State.writeW f s).resetLine = s.resetLine := rfl

/-! ## writeKs -/

@[simp] theorem State.writeKs_key (m : Memory) (s : State) : (State.writeKs m s).key = s.key := rfl
@[simp] theorem State.writeKs_ctr (m : Memory) (s : State) : (State.writeKs m s).ctr = s.ctr := rfl
@[simp] theorem State.writeKs_nonce (m : Memory) (s : State) : (State.writeKs m s).nonce = s.nonce := rfl
@[simp] theorem State.writeKs_w (m : Memory) (s : State) : (State.writeKs m s).w = s.w := rfl
@[simp] theorem State.writeKs_ks (m : Memory) (s : State) : (State.writeKs m s).ks = m := rfl
@[simp] theorem State.writeKs_cur (m : Memory) (s : State) : (State.writeKs m s).cur = s.cur := rfl
@[simp] theorem State.writeKs_initd (m : Memory) (s : State) : (State.writeKs m s).initd = s.initd := rfl
@[simp] theorem State.writeKs_phase (m : Memory) (s : State) : (State.writeKs m s).phase = s.phase := rfl
@[simp] theorem State.writeKs_upc (m : Memory) (s : State) : (State.writeKs m s).upc = s.upc := rfl
@[simp] theorem State.writeKs_op (m : Memory) (s : State) : (State.writeKs m s).op = s.op := rfl
@[simp] theorem State.writeKs_bn (m : Memory) (s : State) : (State.writeKs m s).bn = s.bn := rfl
@[simp] theorem State.writeKs_bi (m : Memory) (s : State) : (State.writeKs m s).bi = s.bi := rfl
@[simp] theorem State.writeKs_cmd (m : Memory) (s : State) : (State.writeKs m s).cmd = s.cmd := rfl
@[simp] theorem State.writeKs_rx (m : Memory) (s : State) : (State.writeKs m s).rx = s.rx := rfl
@[simp] theorem State.writeKs_rsp (m : Memory) (s : State) : (State.writeKs m s).rsp = s.rsp := rfl
@[simp] theorem State.writeKs_rspReady (m : Memory) (s : State) : (State.writeKs m s).rspReady = s.rspReady := rfl
@[simp] theorem State.writeKs_resetLine (m : Memory) (s : State) : (State.writeKs m s).resetLine = s.resetLine := rfl

/-! ## writeCtr -/

@[simp] theorem State.writeCtr_key (c : Word) (s : State) : (State.writeCtr c s).key = s.key := rfl
@[simp] theorem State.writeCtr_ctr (c : Word) (s : State) : (State.writeCtr c s).ctr = some c := rfl
@[simp] theorem State.writeCtr_nonce (c : Word) (s : State) : (State.writeCtr c s).nonce = s.nonce := rfl
@[simp] theorem State.writeCtr_w (c : Word) (s : State) : (State.writeCtr c s).w = s.w := rfl
@[simp] theorem State.writeCtr_ks (c : Word) (s : State) : (State.writeCtr c s).ks = s.ks := rfl
@[simp] theorem State.writeCtr_cur (c : Word) (s : State) : (State.writeCtr c s).cur = s.cur := rfl
@[simp] theorem State.writeCtr_initd (c : Word) (s : State) : (State.writeCtr c s).initd = s.initd := rfl
@[simp] theorem State.writeCtr_phase (c : Word) (s : State) : (State.writeCtr c s).phase = s.phase := rfl
@[simp] theorem State.writeCtr_upc (c : Word) (s : State) : (State.writeCtr c s).upc = s.upc := rfl
@[simp] theorem State.writeCtr_op (c : Word) (s : State) : (State.writeCtr c s).op = s.op := rfl
@[simp] theorem State.writeCtr_bn (c : Word) (s : State) : (State.writeCtr c s).bn = s.bn := rfl
@[simp] theorem State.writeCtr_bi (c : Word) (s : State) : (State.writeCtr c s).bi = s.bi := rfl
@[simp] theorem State.writeCtr_cmd (c : Word) (s : State) : (State.writeCtr c s).cmd = s.cmd := rfl
@[simp] theorem State.writeCtr_rx (c : Word) (s : State) : (State.writeCtr c s).rx = s.rx := rfl
@[simp] theorem State.writeCtr_rsp (c : Word) (s : State) : (State.writeCtr c s).rsp = s.rsp := rfl
@[simp] theorem State.writeCtr_rspReady (c : Word) (s : State) : (State.writeCtr c s).rspReady = s.rspReady := rfl
@[simp] theorem State.writeCtr_resetLine (c : Word) (s : State) : (State.writeCtr c s).resetLine = s.resetLine := rfl

/-! ## clearCur -/

@[simp] theorem State.clearCur_key (s : State) : (State.clearCur s).key = s.key := rfl
@[simp] theorem State.clearCur_ctr (s : State) : (State.clearCur s).ctr = s.ctr := rfl
@[simp] theorem State.clearCur_nonce (s : State) : (State.clearCur s).nonce = s.nonce := rfl
@[simp] theorem State.clearCur_w (s : State) : (State.clearCur s).w = s.w := rfl
@[simp] theorem State.clearCur_ks (s : State) : (State.clearCur s).ks = s.ks := rfl
@[simp] theorem State.clearCur_cur (s : State) : (State.clearCur s).cur = 0 := rfl
@[simp] theorem State.clearCur_initd (s : State) : (State.clearCur s).initd = s.initd := rfl
@[simp] theorem State.clearCur_phase (s : State) : (State.clearCur s).phase = s.phase := rfl
@[simp] theorem State.clearCur_upc (s : State) : (State.clearCur s).upc = s.upc := rfl
@[simp] theorem State.clearCur_op (s : State) : (State.clearCur s).op = s.op := rfl
@[simp] theorem State.clearCur_bn (s : State) : (State.clearCur s).bn = s.bn := rfl
@[simp] theorem State.clearCur_bi (s : State) : (State.clearCur s).bi = s.bi := rfl
@[simp] theorem State.clearCur_cmd (s : State) : (State.clearCur s).cmd = s.cmd := rfl
@[simp] theorem State.clearCur_rx (s : State) : (State.clearCur s).rx = s.rx := rfl
@[simp] theorem State.clearCur_rsp (s : State) : (State.clearCur s).rsp = s.rsp := rfl
@[simp] theorem State.clearCur_rspReady (s : State) : (State.clearCur s).rspReady = s.rspReady := rfl
@[simp] theorem State.clearCur_resetLine (s : State) : (State.clearCur s).resetLine = s.resetLine := rfl

/-! ## xorbDone -/

@[simp] theorem State.xorbDone_key (n i : Word) (rest : List Byte) (s : State) : (State.xorbDone n i rest s).key = s.key := rfl
@[simp] theorem State.xorbDone_ctr (n i : Word) (rest : List Byte) (s : State) : (State.xorbDone n i rest s).ctr = s.ctr := rfl
@[simp] theorem State.xorbDone_nonce (n i : Word) (rest : List Byte) (s : State) : (State.xorbDone n i rest s).nonce = s.nonce := rfl
@[simp] theorem State.xorbDone_w (n i : Word) (rest : List Byte) (s : State) : (State.xorbDone n i rest s).w = s.w := rfl
@[simp] theorem State.xorbDone_ks (n i : Word) (rest : List Byte) (s : State) : (State.xorbDone n i rest s).ks = s.ks := rfl
@[simp] theorem State.xorbDone_cur (n i : Word) (rest : List Byte) (s : State) : (State.xorbDone n i rest s).cur = s.cur + 1 := rfl
@[simp] theorem State.xorbDone_initd (n i : Word) (rest : List Byte) (s : State) : (State.xorbDone n i rest s).initd = s.initd := rfl
@[simp] theorem State.xorbDone_phase (n i : Word) (rest : List Byte) (s : State) : (State.xorbDone n i rest s).phase = if i + 1 = n then .ready else .loop := rfl
@[simp] theorem State.xorbDone_upc (n i : Word) (rest : List Byte) (s : State) : (State.xorbDone n i rest s).upc = s.upc := rfl
@[simp] theorem State.xorbDone_op (n i : Word) (rest : List Byte) (s : State) : (State.xorbDone n i rest s).op = s.op := rfl
@[simp] theorem State.xorbDone_bn (n i : Word) (rest : List Byte) (s : State) : (State.xorbDone n i rest s).bn = s.bn := rfl
@[simp] theorem State.xorbDone_bi (n i : Word) (rest : List Byte) (s : State) : (State.xorbDone n i rest s).bi = some (i + 1) := rfl
@[simp] theorem State.xorbDone_cmd (n i : Word) (rest : List Byte) (s : State) : (State.xorbDone n i rest s).cmd = rest := rfl
@[simp] theorem State.xorbDone_rx (n i : Word) (rest : List Byte) (s : State) : (State.xorbDone n i rest s).rx = [] := rfl
@[simp] theorem State.xorbDone_rsp (n i : Word) (rest : List Byte) (s : State) : (State.xorbDone n i rest s).rsp = s.rsp := rfl
@[simp] theorem State.xorbDone_rspReady (n i : Word) (rest : List Byte) (s : State) : (State.xorbDone n i rest s).rspReady = s.rspReady := rfl
@[simp] theorem State.xorbDone_resetLine (n i : Word) (rest : List Byte) (s : State) : (State.xorbDone n i rest s).resetLine = s.resetLine := rfl

/-! ## take -/

@[simp] theorem State.take_key (len : Nat) (s : State) : (State.take len s).key = s.key := rfl
@[simp] theorem State.take_ctr (len : Nat) (s : State) : (State.take len s).ctr = s.ctr := rfl
@[simp] theorem State.take_nonce (len : Nat) (s : State) : (State.take len s).nonce = s.nonce := rfl
@[simp] theorem State.take_w (len : Nat) (s : State) : (State.take len s).w = s.w := rfl
@[simp] theorem State.take_ks (len : Nat) (s : State) : (State.take len s).ks = s.ks := rfl
@[simp] theorem State.take_cur (len : Nat) (s : State) : (State.take len s).cur = s.cur := rfl
@[simp] theorem State.take_initd (len : Nat) (s : State) : (State.take len s).initd = s.initd := rfl
@[simp] theorem State.take_phase (len : Nat) (s : State) : (State.take len s).phase = s.phase := rfl
@[simp] theorem State.take_upc (len : Nat) (s : State) : (State.take len s).upc = s.upc := rfl
@[simp] theorem State.take_op (len : Nat) (s : State) : (State.take len s).op = s.op := rfl
@[simp] theorem State.take_bn (len : Nat) (s : State) : (State.take len s).bn = s.bn := rfl
@[simp] theorem State.take_bi (len : Nat) (s : State) : (State.take len s).bi = s.bi := rfl
@[simp] theorem State.take_cmd (len : Nat) (s : State) : (State.take len s).cmd = s.stream.drop len := rfl
@[simp] theorem State.take_rx (len : Nat) (s : State) : (State.take len s).rx = s.stream.take len := rfl
@[simp] theorem State.take_rsp (len : Nat) (s : State) : (State.take len s).rsp = s.rsp := rfl
@[simp] theorem State.take_rspReady (len : Nat) (s : State) : (State.take len s).rspReady = s.rspReady := rfl
@[simp] theorem State.take_resetLine (len : Nat) (s : State) : (State.take len s).resetLine = s.resetLine := rfl

/-! ## hostSend -/

@[simp] theorem State.hostSend_key (bs : List Byte) (s : State) : (State.hostSend bs s).key = s.key := rfl
@[simp] theorem State.hostSend_ctr (bs : List Byte) (s : State) : (State.hostSend bs s).ctr = s.ctr := rfl
@[simp] theorem State.hostSend_nonce (bs : List Byte) (s : State) : (State.hostSend bs s).nonce = s.nonce := rfl
@[simp] theorem State.hostSend_w (bs : List Byte) (s : State) : (State.hostSend bs s).w = s.w := rfl
@[simp] theorem State.hostSend_ks (bs : List Byte) (s : State) : (State.hostSend bs s).ks = s.ks := rfl
@[simp] theorem State.hostSend_cur (bs : List Byte) (s : State) : (State.hostSend bs s).cur = s.cur := rfl
@[simp] theorem State.hostSend_initd (bs : List Byte) (s : State) : (State.hostSend bs s).initd = s.initd := rfl
@[simp] theorem State.hostSend_phase (bs : List Byte) (s : State) : (State.hostSend bs s).phase = s.phase := rfl
@[simp] theorem State.hostSend_upc (bs : List Byte) (s : State) : (State.hostSend bs s).upc = s.upc := rfl
@[simp] theorem State.hostSend_op (bs : List Byte) (s : State) : (State.hostSend bs s).op = s.op := rfl
@[simp] theorem State.hostSend_bn (bs : List Byte) (s : State) : (State.hostSend bs s).bn = s.bn := rfl
@[simp] theorem State.hostSend_bi (bs : List Byte) (s : State) : (State.hostSend bs s).bi = s.bi := rfl
@[simp] theorem State.hostSend_cmd (bs : List Byte) (s : State) : (State.hostSend bs s).cmd = s.cmd ++ bs := rfl
@[simp] theorem State.hostSend_rx (bs : List Byte) (s : State) : (State.hostSend bs s).rx = s.rx := rfl
@[simp] theorem State.hostSend_rsp (bs : List Byte) (s : State) : (State.hostSend bs s).rsp = s.rsp := rfl
@[simp] theorem State.hostSend_rspReady (bs : List Byte) (s : State) : (State.hostSend bs s).rspReady = s.rspReady := rfl
@[simp] theorem State.hostSend_resetLine (bs : List Byte) (s : State) : (State.hostSend bs s).resetLine = s.resetLine := rfl

/-! ## hostTake -/

@[simp] theorem State.hostTake_key (k : Nat) (s : State) : (State.hostTake k s).key = s.key := rfl
@[simp] theorem State.hostTake_ctr (k : Nat) (s : State) : (State.hostTake k s).ctr = s.ctr := rfl
@[simp] theorem State.hostTake_nonce (k : Nat) (s : State) : (State.hostTake k s).nonce = s.nonce := rfl
@[simp] theorem State.hostTake_w (k : Nat) (s : State) : (State.hostTake k s).w = s.w := rfl
@[simp] theorem State.hostTake_ks (k : Nat) (s : State) : (State.hostTake k s).ks = s.ks := rfl
@[simp] theorem State.hostTake_cur (k : Nat) (s : State) : (State.hostTake k s).cur = s.cur := rfl
@[simp] theorem State.hostTake_initd (k : Nat) (s : State) : (State.hostTake k s).initd = s.initd := rfl
@[simp] theorem State.hostTake_phase (k : Nat) (s : State) : (State.hostTake k s).phase = s.phase := rfl
@[simp] theorem State.hostTake_upc (k : Nat) (s : State) : (State.hostTake k s).upc = s.upc := rfl
@[simp] theorem State.hostTake_op (k : Nat) (s : State) : (State.hostTake k s).op = s.op := rfl
@[simp] theorem State.hostTake_bn (k : Nat) (s : State) : (State.hostTake k s).bn = s.bn := rfl
@[simp] theorem State.hostTake_bi (k : Nat) (s : State) : (State.hostTake k s).bi = s.bi := rfl
@[simp] theorem State.hostTake_cmd (k : Nat) (s : State) : (State.hostTake k s).cmd = s.cmd := rfl
@[simp] theorem State.hostTake_rx (k : Nat) (s : State) : (State.hostTake k s).rx = s.rx := rfl
@[simp] theorem State.hostTake_rsp (k : Nat) (s : State) : (State.hostTake k s).rsp = s.rsp.drop k := rfl
@[simp] theorem State.hostTake_rspReady (k : Nat) (s : State) : (State.hostTake k s).rspReady = s.rspReady := rfl
@[simp] theorem State.hostTake_resetLine (k : Nat) (s : State) : (State.hostTake k s).resetLine = s.resetLine := rfl

/-! ## hostReady -/

@[simp] theorem State.hostReady_key (b : Bool) (s : State) : (State.hostReady b s).key = s.key := rfl
@[simp] theorem State.hostReady_ctr (b : Bool) (s : State) : (State.hostReady b s).ctr = s.ctr := rfl
@[simp] theorem State.hostReady_nonce (b : Bool) (s : State) : (State.hostReady b s).nonce = s.nonce := rfl
@[simp] theorem State.hostReady_w (b : Bool) (s : State) : (State.hostReady b s).w = s.w := rfl
@[simp] theorem State.hostReady_ks (b : Bool) (s : State) : (State.hostReady b s).ks = s.ks := rfl
@[simp] theorem State.hostReady_cur (b : Bool) (s : State) : (State.hostReady b s).cur = s.cur := rfl
@[simp] theorem State.hostReady_initd (b : Bool) (s : State) : (State.hostReady b s).initd = s.initd := rfl
@[simp] theorem State.hostReady_phase (b : Bool) (s : State) : (State.hostReady b s).phase = s.phase := rfl
@[simp] theorem State.hostReady_upc (b : Bool) (s : State) : (State.hostReady b s).upc = s.upc := rfl
@[simp] theorem State.hostReady_op (b : Bool) (s : State) : (State.hostReady b s).op = s.op := rfl
@[simp] theorem State.hostReady_bn (b : Bool) (s : State) : (State.hostReady b s).bn = s.bn := rfl
@[simp] theorem State.hostReady_bi (b : Bool) (s : State) : (State.hostReady b s).bi = s.bi := rfl
@[simp] theorem State.hostReady_cmd (b : Bool) (s : State) : (State.hostReady b s).cmd = s.cmd := rfl
@[simp] theorem State.hostReady_rx (b : Bool) (s : State) : (State.hostReady b s).rx = s.rx := rfl
@[simp] theorem State.hostReady_rsp (b : Bool) (s : State) : (State.hostReady b s).rsp = s.rsp := rfl
@[simp] theorem State.hostReady_rspReady (b : Bool) (s : State) : (State.hostReady b s).rspReady = b := rfl
@[simp] theorem State.hostReady_resetLine (b : Bool) (s : State) : (State.hostReady b s).resetLine = s.resetLine := rfl

/-! ## assertReset -/

@[simp] theorem State.assertReset_key (s : State) : (State.assertReset s).key = s.key := rfl
@[simp] theorem State.assertReset_ctr (s : State) : (State.assertReset s).ctr = s.ctr := rfl
@[simp] theorem State.assertReset_nonce (s : State) : (State.assertReset s).nonce = s.nonce := rfl
@[simp] theorem State.assertReset_w (s : State) : (State.assertReset s).w = s.w := rfl
@[simp] theorem State.assertReset_ks (s : State) : (State.assertReset s).ks = s.ks := rfl
@[simp] theorem State.assertReset_cur (s : State) : (State.assertReset s).cur = s.cur := rfl
@[simp] theorem State.assertReset_initd (s : State) : (State.assertReset s).initd = s.initd := rfl
@[simp] theorem State.assertReset_phase (s : State) : (State.assertReset s).phase = s.phase := rfl
@[simp] theorem State.assertReset_upc (s : State) : (State.assertReset s).upc = s.upc := rfl
@[simp] theorem State.assertReset_op (s : State) : (State.assertReset s).op = s.op := rfl
@[simp] theorem State.assertReset_bn (s : State) : (State.assertReset s).bn = s.bn := rfl
@[simp] theorem State.assertReset_bi (s : State) : (State.assertReset s).bi = s.bi := rfl
@[simp] theorem State.assertReset_cmd (s : State) : (State.assertReset s).cmd = s.cmd := rfl
@[simp] theorem State.assertReset_rx (s : State) : (State.assertReset s).rx = s.rx := rfl
@[simp] theorem State.assertReset_rsp (s : State) : (State.assertReset s).rsp = s.rsp := rfl
@[simp] theorem State.assertReset_rspReady (s : State) : (State.assertReset s).rspReady = s.rspReady := rfl
@[simp] theorem State.assertReset_resetLine (s : State) : (State.assertReset s).resetLine = true := rfl

/-! ## resetEvent -/

@[simp] theorem State.resetEvent_key (s : State) : (State.resetEvent s).key = Vector.replicate 8 none := rfl
@[simp] theorem State.resetEvent_ctr (s : State) : (State.resetEvent s).ctr = none := rfl
@[simp] theorem State.resetEvent_nonce (s : State) : (State.resetEvent s).nonce = Vector.replicate 3 none := rfl
@[simp] theorem State.resetEvent_w (s : State) : (State.resetEvent s).w = Vector.replicate 16 none := rfl
@[simp] theorem State.resetEvent_ks (s : State) : (State.resetEvent s).ks = [] := rfl
@[simp] theorem State.resetEvent_cur (s : State) : (State.resetEvent s).cur = 0 := rfl
@[simp] theorem State.resetEvent_initd (s : State) : (State.resetEvent s).initd = false := rfl
@[simp] theorem State.resetEvent_phase (s : State) : (State.resetEvent s).phase = .ready := rfl
@[simp] theorem State.resetEvent_upc (s : State) : (State.resetEvent s).upc = 0 := rfl
@[simp] theorem State.resetEvent_op (s : State) : (State.resetEvent s).op = none := rfl
@[simp] theorem State.resetEvent_bn (s : State) : (State.resetEvent s).bn = none := rfl
@[simp] theorem State.resetEvent_bi (s : State) : (State.resetEvent s).bi = none := rfl
@[simp] theorem State.resetEvent_cmd (s : State) : (State.resetEvent s).cmd = s.cmd := rfl
@[simp] theorem State.resetEvent_rx (s : State) : (State.resetEvent s).rx = [] := rfl
@[simp] theorem State.resetEvent_rsp (s : State) : (State.resetEvent s).rsp = s.rsp := rfl
@[simp] theorem State.resetEvent_rspReady (s : State) : (State.resetEvent s).rspReady = s.rspReady := rfl
@[simp] theorem State.resetEvent_resetLine (s : State) : (State.resetEvent s).resetLine = false := rfl

end Sys2Proof.Machine
end

