-- ==== Sys2Proof/Laws/Ops.lean ====
section
/-! SUPPORT. Laws/Ops.lean: for each shared operation and each meaning, one lemma that says everything it can answer;
proofs cite these and do not unfold the operations. -/

namespace Sys2Proof.Machine

/-! ## Sending -/

/-- `Send` happens, or the block waits. -/
theorem respond_eq (v : Byte) (waiting done : State) :
    respond v waiting done = .next (if waiting.rspReady then done.send v else waiting) := by
  unfold respond
  split_ifs <;> rfl

theorem respond_ready (v : Byte) (waiting done : State) (h : waiting.rspReady = true) :
    respond v waiting done = .next (done.send v) := by
  simp [respond, h]

theorem respond_waits (v : Byte) (waiting done : State) (h : waiting.rspReady = false) :
    respond v waiting done = .next waiting := by
  simp [respond, h]

/-- The abort always answers a next state. -/
theorem raise_eq (e : ErrorKind) (s : State) :
    raise e s = .next (if s.rspReady then s.consumed.send e.code else s) := respond_eq _ _ _

theorem raise_ready (e : ErrorKind) (s : State) (h : s.rspReady = true) :
    raise e s = .next (s.consumed.send e.code) := respond_ready _ _ _ h

/-- Everything the discarding of a payload can do: wait for the rest of it, or abort. -/
theorem discardThenRaise_eq (n : Nat) (e : ErrorKind) (s : State) :
    discardThenRaise n e s =
      .next
        (if s.cmd.length < n then s.taken (s.rx ++ s.cmd) []
          else if s.rspReady then
            (s.taken (s.rx ++ s.cmd.take n) (s.cmd.drop n)).consumed.send e.code
          else s.taken (s.rx ++ s.cmd.take n) (s.cmd.drop n)) := by
  unfold discardThenRaise
  split_ifs <;> simp_all [raise, respond]

/-! ## Commands -/

/-- Everything ENCRYPT and DECRYPT can do before their byte loop. -/
theorem streamCommand_eq (opcode : Byte) (n : Word) (s : State) :
    streamCommand opcode n s =
      if s.initd = false then discardThenRaise n.toNat .notInitialized s
      else if n = 0 then raise .validation s
      else .next (if s.rspReady then ((s.accept opcode n).consumed).send statusOk else s) := by
  unfold streamCommand
  rw [respond_eq]

/-- Everything INIT can do. -/
theorem execInit_eq (key nonce : List Byte) (ctr : Word) (s : State) :
    execInit key nonce ctr s =
      if key.length = 32 ∧ nonce.length = 12 then
        .next (if s.rspReady then ((s.loadCipher key nonce ctr).consumed).send statusOk else s)
      else raise .validation s := by
  unfold execInit
  rw [respond_eq]
  simp only [Config.keyBytes, Config.nonceBytes]
  by_cases h : key.length = 32 ∧ nonce.length = 12
  · have h' : ¬ (key.length ≠ 32 ∨ nonce.length ≠ 12) := by omega
    rw [if_neg h', if_pos h]
  · have h' : key.length ≠ 32 ∨ nonce.length ≠ 12 := by omega
    rw [if_pos h', if_neg h]

/-! ## Micro-ops -/

/-- The words of W after a write of four: those four, and the others as before. -/
theorem setFour_getElem (f : Vector (Option Word) 16) (a b c d : Fin 16) (r : Word × Word × Word × Word) (j : Fin 16) :
    (setFour f a b c d r)[j] =
      if d = j then some r.2.2.2 else if c = j then some r.2.2.1 else if b = j then some r.2.1
      else if a = j then some r.1 else f[j] := by
  simp only [setFour, Fin.getElem_fin, Vector.getElem_set, Fin.ext_iff]

/-- A QR micro-op on four written words. -/
theorem qrMicro_eq (a b c d : Fin 16) (s : State) (wa wb wc wd : Word) (ha : s.w[a] = some wa) (hb : s.w[b] = some wb)
    (hc : s.w[c] = some wc) (hd : s.w[d] = some wd) :
    qrMicro a b c d s = .next (s.writeW (setFour s.w a b c d (qr wa wb wc wd))).upcNext := by
  unfold qrMicro
  rw [ha, hb, hc, hd]

/-- If a QR micro-op answers a next state, its four words were written, and this is the state. -/
theorem qrMicro_next (a b c d : Fin 16) (s t : State) (h : qrMicro a b c d s = .next t) :
    ∃ wa wb wc wd, s.w[a] = some wa ∧ s.w[b] = some wb ∧ s.w[c] = some wc ∧ s.w[d] = some wd ∧
      t = (s.writeW (setFour s.w a b c d (qr wa wb wc wd))).upcNext := by
  unfold qrMicro at h
  split at h
  · rename_i wa wb wc wd ha hb hc hd
    exact ⟨wa, wb, wc, wd, ha, hb, hc, hd, (Host.Outcome.next.inj h).symm⟩
  · cases h

/-- A QR micro-op where all of W is written is QR on the words. -/
theorem qrMicro_written (a b c d : Fin 16) (s : State) (x : Vector Word 16) (h : s.w = written x) :
    qrMicro a b c d s = .next (s.writeW (written (qrAt a b c d x))).upcNext := by
  rw [qrMicro_eq a b c d s x[a] x[b] x[c] x[d] (by simp [h]) (by simp [h]) (by simp [h]) (by simp [h])]
  simp only [h, setFour, written_set, qrAt]

theorem execLdw_eq (s : State) (x : Vector Word 16) (h : s.allS = some x) :
    execLdw s = .next (s.writeW (written x)).upcNext := by
  unfold execLdw
  rw [h]

theorem execLdw_next (s t : State) (h : execLdw s = .next t) :
    ∃ x, s.allS = some x ∧ t = (s.writeW (written x)).upcNext := by
  unfold execLdw at h
  split at h
  · exact ⟨_, ‹_›, (Host.Outcome.next.inj h).symm⟩
  · cases h

theorem execFfadd_eq (s : State) (x y : Vector Word 16) (hx : s.allW = some x) (hy : s.allS = some y) :
    execFfadd s = .next (s.writeW (written (feedForward x y))).upcNext := by
  unfold execFfadd
  rw [hx, hy]

theorem execFfadd_next (s t : State) (h : execFfadd s = .next t) :
    ∃ x y, s.allW = some x ∧ s.allS = some y ∧
      t = (s.writeW (written (feedForward x y))).upcNext := by
  unfold execFfadd at h
  split at h
  · exact ⟨_, _, ‹_›, ‹_›, (Host.Outcome.next.inj h).symm⟩
  · cases h
  · cases h

theorem execSer_eq (s : State) (x : Vector Word 16) (h : s.allW = some x) :
    execSer s = .next (s.writeKs (serialize s.ks x)).upcNext := by
  unfold execSer
  rw [h]

theorem execSer_next (s t : State) (h : execSer s = .next t) :
    ∃ x, s.allW = some x ∧ t = (s.writeKs (serialize s.ks x)).upcNext := by
  unfold execSer at h
  split at h
  · exact ⟨_, ‹_›, (Host.Outcome.next.inj h).symm⟩
  · cases h

theorem execCtrinc_eq (s : State) (c : Word) (h : s.ctr = some c) :
    execCtrinc s = .next (s.writeCtr (add32 c 1)).upcNext := by
  simp only [execCtrinc, h]

theorem execCtrinc_next (s t : State) (h : execCtrinc s = .next t) :
    ∃ c, s.ctr = some c ∧ t = (s.writeCtr (add32 c 1)).upcNext := by
  unfold execCtrinc at h
  split at h
  · exact ⟨_, ‹_›, (Host.Outcome.next.inj h).symm⟩
  · cases h

/-- The command context is legal exactly where BN and BI are written and BI is below BN. -/
theorem context_ok (s : State) (n i : Word) :
    s.context = .ok (n, i) ↔ s.bn = some n ∧ s.bi = some i ∧ i < n := by
  unfold State.context
  split
  · rename_i n' i' hn hi
    split_ifs with h
    · simp only [Except.ok.injEq, Prod.mk.injEq, hn, hi, Option.some.injEq]
      constructor
      · rintro ⟨rfl, rfl⟩
        exact ⟨rfl, rfl, h⟩
      · rintro ⟨rfl, rfl, -⟩
        exact ⟨rfl, rfl⟩
    · simp only [hn, hi, Option.some.injEq, false_iff]
      rintro ⟨rfl, rfl, h'⟩
      exact h h'
  · rename_i h
    simp only [reduceCtorEq, false_iff]
    rintro ⟨hn, hi, -⟩
    exact h n i hn hi

/-- XORB with a legal context, a cursor in 0..63, a written keystream byte and a data byte on the stream. -/
theorem execXorb_eq (s : State) (n i : Word) (d k : Byte) (rest : List Byte) (hc : s.context = .ok (n, i))
    (hcur : s.cur ≤ 63#7) (hs : s.stream = d :: rest) (hk : memRead s.ks s.cur.toNat = some k) :
    execXorb s = respond (d ^^^ k) (s.taken [d] rest) (s.xorbDone n i rest) := by
  have h : ¬ 63#7 < s.cur := BitVec.not_lt.mpr hcur
  simp only [execXorb, hc, h, hs, hk, if_false]

/-- If XORB answers a next state, its context is legal, and either it waits for the data byte or it has one and a
keystream byte, and ends as `respond` says. -/
theorem execXorb_next (s t : State) (h : execXorb s = .next t) :
    ∃ n i, s.context = .ok (n, i) ∧ s.cur ≤ 63#7 ∧
      ((s.stream = [] ∧ t = s) ∨
        ∃ d rest k, s.stream = d :: rest ∧ memRead s.ks s.cur.toNat = some k ∧
          respond (d ^^^ k) (s.taken [d] rest) (s.xorbDone n i rest) = .next t) := by
  unfold execXorb at h
  split at h
  · cases h
  · rename_i n i hc
    split_ifs at h with hcur
    refine ⟨n, i, hc, BitVec.not_lt.mp hcur, ?_⟩
    split at h
    · rename_i hs
      exact .inl ⟨hs, (Host.Outcome.next.inj h).symm⟩
    · rename_i d rest hs
      split at h
      · cases h
      · rename_i k hk
        exact .inr ⟨d, rest, k, hs, hk, h⟩

end Sys2Proof.Machine
end

