-- ==== Sys2Proof/Laws/Step.lean ====
section
/-! SUPPORT. Laws/Step.lean: everything one step can do, said once. -/

namespace Sys2Proof.Machine

/-- No model fault shows in the position and the cursor exactly where these hold. -/
theorem controlFault_none (s : State) :
    s.controlFault = none ↔
      s.cur ≤ 64#7 ∧ s.upc ≤ 84#7 ∧ (s.phase ≠ .ready → ∃ n i, s.bn = some n ∧ s.bi = some i ∧ i < n) := by
  unfold State.controlFault
  by_cases h1 : 64#7 < s.cur
  · rw [if_pos h1]
    simp [BitVec.not_le.mpr h1]
  by_cases h2 : 84#7 < s.upc
  · rw [if_neg h1, if_pos h2]
    simp [BitVec.not_le.mpr h2]
  by_cases h3 : s.phase = .ready
  · rw [if_neg h1, if_neg h2, if_pos h3]
    simp [BitVec.not_lt.mp h1, BitVec.not_lt.mp h2, h3]
  · rw [if_neg h1, if_neg h2, if_neg h3]
    simp only [BitVec.not_lt.mp h1, BitVec.not_lt.mp h2, true_and, ne_eq, h3, not_false_eq_true, forall_const]
    simp only [← context_ok]
    cases h : s.context with
    | error f => simp
    | ok p => simp only [true_iff]; exact ⟨p.1, p.2, rfl⟩

/-- Everything a step that answers a next state can be: the reset event; or, with no model fault showing, one of the
actions of the phase. -/
theorem step_next_cases (s t : State) (h : step s = .next t) :
    (s.resetLine = true ∧ t = s.resetEvent) ∨
    (s.resetLine = false ∧ s.controlFault = none ∧
      ((s.phase = .ready ∧ decodeCommand s.stream = .incomplete ∧ t = s.take s.stream.length) ∨
       (s.phase = .ready ∧ (∃ op, decodeCommand s.stream = .illegal op) ∧
          raise .illegalCommand (s.take 1) = .next t) ∨
       (s.phase = .ready ∧ ∃ i len, decodeCommand s.stream = .complete i len ∧ exec i (s.take len) = .next t) ∨
       (s.phase = .loop ∧ (s.cur = 0 ∨ s.cur = 64#7) ∧ t = s.regenStart) ∨
       (s.phase = .loop ∧ ¬ (s.cur = 0 ∨ s.cur = 64#7) ∧ exec .xorb s = .next t) ∨
       (s.phase = .regen ∧ ∃ code i, rom[s.upc.toNat]? = some code ∧ decodeMicro code = .op i ∧ exec i s = .next t) ∨
       (s.phase = .xfer ∧ exec .xorb s = .next t))) := by
  unfold step nextAction at h
  by_cases hr : s.resetLine = true
  · rw [if_pos hr] at h
    exact .inl ⟨hr, (Host.Outcome.next.inj h).symm⟩
  · rw [if_neg hr] at h
    refine .inr ⟨by simpa using hr, ?_⟩
    cases hf : s.controlFault with
    | some f => simp [hf] at h
    | none =>
      refine ⟨rfl, ?_⟩
      simp only [hf] at h
      cases hp : s.phase with
      | ready =>
        simp only [hp, readyAction] at h
        cases hd : decodeCommand s.stream with
        | incomplete =>
          simp only [hd] at h
          exact .inl ⟨rfl, rfl, (Host.Outcome.next.inj h).symm⟩
        | illegal op =>
          simp only [hd] at h
          exact .inr (.inl ⟨rfl, ⟨op, rfl⟩, h⟩)
        | complete i len =>
          simp only [hd] at h
          exact .inr (.inr (.inl ⟨rfl, i, len, rfl, h⟩))
      | loop =>
        simp only [hp, loopAction] at h
        by_cases hc : s.cur = 0 ∨ s.cur = 64#7
        · rw [if_pos hc] at h
          exact .inr (.inr (.inr (.inl ⟨rfl, hc, (Host.Outcome.next.inj h).symm⟩)))
        · rw [if_neg hc] at h
          exact .inr (.inr (.inr (.inr (.inl ⟨rfl, hc, h⟩))))
      | regen =>
        simp only [hp, regenAction] at h
        cases hc : rom[s.upc.toNat]? with
        | none => simp [hc] at h
        | some code =>
          simp only [hc] at h
          cases hd : decodeMicro code with
          | reserved c => simp [hd] at h
          | op i =>
            simp only [hd] at h
            exact .inr (.inr (.inr (.inr (.inr (.inl ⟨rfl, code, i, rfl, hd, h⟩)))))
      | xfer =>
        simp only [hp] at h
        exact .inr (.inr (.inr (.inr (.inr (.inr ⟨rfl, h⟩)))))

end Sys2Proof.Machine
end

