-- ==== Sys2Proof/Laws/Invariant.lean ====
section
/-! SUPPORT. Laws/Invariant.lean: what the predicates of Safety.lean depend on, so that a proof cites these and does
not unfold them (an attempt to unify two states field by field is slow). -/

namespace Sys2Proof.Machine

theorem sWritten_congr {s t : State} (hk : t.key = s.key) (hc : t.ctr = s.ctr) (hn : t.nonce = s.nonce) :
    t.sWritten ↔ s.sWritten := by
  unfold State.sWritten
  exact forall_congr' fun i => by rw [readS_congr t s hk hc hn]

theorem wWritten_congr {s t : State} (h : t.w = s.w) : t.wWritten ↔ s.wWritten := by
  unfold State.wWritten
  rw [h]

theorem ksWritten_congr {s t : State} (h : t.ks = s.ks) : t.ksWritten ↔ s.ksWritten := by
  unfold State.ksWritten
  rw [h]

theorem wWritten_of_written {s : State} {x : Vector Word 16} (h : s.w = written x) : s.wWritten := by
  intro i
  simp [h]

/-- S is all written where its three parts are. -/
theorem sWritten_of_parts {s : State} (hk : ∀ i : Fin 8, (s.key[i]).isSome = true) (hc : s.ctr.isSome = true)
    (hn : ∀ i : Fin 3, (s.nonce[i]).isSome = true) : s.sWritten := by
  intro i
  have := hk 0; have := hk 1; have := hk 2; have := hk 3; have := hk 4; have := hk 5; have := hk 6; have := hk 7
  have := hn 0; have := hn 1; have := hn 2
  unfold State.readS State.sFile
  fin_cases i <;> simp_all

/-- S is read whole exactly where all of it is written. -/
theorem allS_isSome (s : State) : s.allS.isSome = true ↔ s.sWritten := gather_isSome s.sFile

/-- W is read whole exactly where all of it is written. -/
theorem allW_isSome (s : State) : s.allW.isSome = true ↔ s.wWritten := gather_isSome s.w

/-- S read word by word is S read whole. -/
theorem allS_of_readS (s : State) (x : Vector Word 16) (h : ∀ i : Fin 16, s.readS i = some x[i]) :
    s.allS = some x := by
  unfold State.allS
  rw [gather_eq_some]
  ext i hi : 1
  have h1 := h ⟨i, hi⟩
  simp only [State.readS, Fin.getElem_fin] at h1
  rw [h1, written_getElem]

/-- A step that changes nothing the invariant speaks of keeps it. -/
theorem State.Inv.of_same {s t : State} (hi : s.Inv) (hk : t.key = s.key) (hc : t.ctr = s.ctr) (hn : t.nonce = s.nonce)
    (hw : t.w = s.w) (hm : t.ks = s.ks) (hcur : t.cur = s.cur) (hI : t.initd = s.initd) (hp : t.phase = s.phase)
    (hu : t.upc = s.upc) (hbn : t.bn = s.bn) (hbi : t.bi = s.bi) : t.Inv where
  cursor := hcur ▸ hi.cursor
  initd := by rw [hI, sWritten_congr hk hc hn]; exact hi.initd
  keystream := by rw [hI, hcur, ksWritten_congr hm]; exact hi.keystream
  context := by rw [hp, hI, hbn, hbi]; exact hi.context
  xfer := by rw [hp, hcur, ksWritten_congr hm]; exact hi.xfer
  outside := by rw [hp, hu]; exact hi.outside
  inside := hu ▸ hi.inside
  regenCur := by rw [hp, hcur]; exact hi.regenCur
  regenW := by rw [hp, hu, wWritten_congr hw]; exact hi.regenW
  regenKs := by rw [hp, hu, ksWritten_congr hm]; exact hi.regenKs
  memory := hm ▸ hi.memory

end Sys2Proof.Machine
end

