-- ==== Sys2Proof/Laws/PerInstr.lean ====
section
/-! SUPPORT. Laws/PerInstr.lean: a statement for all instructions, made per instruction: an instruction's code belongs
to one of the two sets of 30_encoding.md R70 only, and its encoding starts with it. -/

namespace Sys2Proof.Laws.CodeSets

/-- The encoding starts with the code; a micro-op's code decodes to it and is its whole encoding; a command's opcode is
a reserved micro-op code; and the code is no illegal opcode exactly for a command (30_encoding.md R70, R77, R83). -/
def Statement (i : Instr) : Prop :=
  (encode i).head? = some i.code ∧
    (i.isCommand = false → encode i = [i.code] ∧ decodeMicro i.code = .op i) ∧
    (i.isCommand = true → decodeMicro i.code = .reserved i.code) ∧
    (decodeCommand [i.code] = .illegal i.code ↔ i.isCommand = false)

theorem init (key nonce : List Byte) (ctr : Word) : Statement (.init key nonce ctr) :=
  ⟨rfl, by simp [Instr.isCommand], fun _ => (by decide : decodeMicro 0x01#8 = .reserved 0x01#8), by
    simp [Instr.isCommand, Instr.code, decodeCommand, decodeInit]⟩

theorem encrypt (n : Word) : Statement (.encrypt n) :=
  ⟨rfl, by simp [Instr.isCommand], fun _ => (by decide : decodeMicro 0x02#8 = .reserved 0x02#8), by
    simp [Instr.isCommand, Instr.code, decodeCommand, decodeCx]⟩

theorem decrypt (n : Word) : Statement (.decrypt n) :=
  ⟨rfl, by simp [Instr.isCommand], fun _ => (by decide : decodeMicro 0x03#8 = .reserved 0x03#8), by
    simp [Instr.isCommand, Instr.code, decodeCommand, decodeCx]⟩

theorem ldw : Statement .ldw := ⟨by decide, by decide, by decide, by decide⟩

theorem qrC0 : Statement .qrC0 := ⟨by decide, by decide, by decide, by decide⟩

theorem qrC1 : Statement .qrC1 := ⟨by decide, by decide, by decide, by decide⟩

theorem qrC2 : Statement .qrC2 := ⟨by decide, by decide, by decide, by decide⟩

theorem qrC3 : Statement .qrC3 := ⟨by decide, by decide, by decide, by decide⟩

theorem qrD0 : Statement .qrD0 := ⟨by decide, by decide, by decide, by decide⟩

theorem qrD1 : Statement .qrD1 := ⟨by decide, by decide, by decide, by decide⟩

theorem qrD2 : Statement .qrD2 := ⟨by decide, by decide, by decide, by decide⟩

theorem qrD3 : Statement .qrD3 := ⟨by decide, by decide, by decide, by decide⟩

theorem ffadd : Statement .ffadd := ⟨by decide, by decide, by decide, by decide⟩

theorem ser : Statement .ser := ⟨by decide, by decide, by decide, by decide⟩

theorem ctrinc : Statement .ctrinc := ⟨by decide, by decide, by decide, by decide⟩

theorem curclr : Statement .curclr := ⟨by decide, by decide, by decide, by decide⟩

theorem xorb : Statement .xorb := ⟨by decide, by decide, by decide, by decide⟩

end Sys2Proof.Laws.CodeSets
end

