-- ==== Sys2Proof/Laws/Run.lean ====
section
/-! SUPPORT. Laws/Run.lean: runs of several steps, put together. -/

namespace Sys2Proof.Machine

theorem coreRun_next (M : Host.Core) (n : Nat) (s t : M.State) (h : M.step s = .next t) :
    M.run (n + 1) s = M.run n t := by simp only [Host.Core.run, h]

theorem coreRun_fault (M : Host.Core) (n : Nat) (s : M.State) (f : M.Fault) (h : M.step s = .fault f) :
    M.run (n + 1) s = .fault f := by simp only [Host.Core.run, h]

theorem coreRun_refused (M : Host.Core) (n : Nat) (s : M.State) (r : M.Refusal) (h : M.step s = .refused r) :
    M.run (n + 1) s = .refused r := by simp only [Host.Core.run, h]

@[simp] theorem runSteps_zero (s : State) : runSteps 0 s = .next s := rfl

/-- A run is a first step and then the rest, unless that step stops. -/
theorem runSteps_unfold (n : Nat) (s : State) :
    runSteps (n + 1) s =
      match step s with
      | .next t => runSteps n t
      | .fault f => .fault f
      | .refused r => .refused r := by
  cases hs : step s with
  | next t => exact coreRun_next Sys2Proof.core n s t hs
  | fault f => exact coreRun_fault Sys2Proof.core n s f hs
  | refused r => exact coreRun_refused Sys2Proof.core n s r hs

theorem runSteps_succ (n : Nat) (s t : State) (h : step s = .next t) : runSteps (n + 1) s = runSteps n t := by
  rw [runSteps_unfold, h]

/-- One run after another. -/
theorem runSteps_add (m n : Nat) (s t : State) (h : runSteps m s = .next t) : runSteps (m + n) s = runSteps n t := by
  induction m generalizing s with
  | zero =>
    have e : s = t := Host.Outcome.next.inj h
    rw [Nat.zero_add, e]
  | succ m ih =>
    rw [runSteps_unfold] at h
    rw [Nat.add_right_comm, runSteps_unfold]
    cases hs : step s with
    | next u =>
      simp only [hs] at h
      exact ih u h
    | fault f => simp [hs] at h
    | refused r => simp [hs] at h

theorem Reaches.refl (s : State) : Reaches s s := ⟨0, rfl⟩

theorem Reaches.step {s t : State} (h : step s = .next t) : Reaches s t := ⟨1, by rw [runSteps_succ 0 s t h]; rfl⟩

theorem Reaches.trans {s t u : State} (h1 : Reaches s t) (h2 : Reaches t u) : Reaches s u := by
  obtain ⟨m, hm⟩ := h1
  obtain ⟨n, hn⟩ := h2
  exact ⟨m + n, by rw [runSteps_add m n s t hm, hn]⟩

end Sys2Proof.Machine
end

