-- ==== Sys2Proof/Tests/Slice0.lean ====
section
/-! SUPPORT. Tests/Slice0.lean: tests on values written out in spec/ (95_test_vectors.md and the worked examples of the
rules), the refusals of WellFormed, and, for each obligation with hypotheses, a state and operands that meet them. -/

namespace Sys2Proof.Tests

section OneAtATime

open Sys2Proof Sys2Proof.Machine

-- One theorem after another: each `decide +kernel` holds a thread until the theorems before it are checked.
set_option Elab.async false

/-! ## States the tests start from -/

/-- K of 95_test_vectors.md: the bytes 0x00 to 0x1f. -/
def keyK : List Byte := (List.range 32).map (BitVec.ofNat 8)

/-- The nonce bytes of state ST1 (95_test_vectors.md L2.1.3). -/
def nonce1 : List Byte := [0x00#8, 0x00#8, 0x00#8, 0x09#8, 0x00#8, 0x00#8, 0x00#8, 0x4a#8, 0x00#8, 0x00#8, 0x00#8, 0x00#8]

/-- S[4..11] of state ST1 (95_test_vectors.md L2.1.3). -/
def key1 : Vector Word 8 :=
  #v[0x03020100#32, 0x07060504#32, 0x0b0a0908#32, 0x0f0e0d0c#32, 0x13121110#32, 0x17161514#32, 0x1b1a1918#32,
    0x1f1e1d1c#32]

/-- S[13..15] of state ST1. -/
def nonceWords1 : Vector Word 3 := #v[0x09000000#32, 0x4a000000#32, 0x00000000#32]

/-- State ST1 as sixteen words. -/
def st1 : Vector Word 16 := cipherWords key1 0x00000001#32 nonceWords1

/-- In READY, with ST1 in S and `bs` on the command stream. -/
def loaded (bs : List Byte) : State :=
  { State.reset with key := written key1, ctr := some 0x00000001#32, nonce := written nonceWords1, initd := true, cmd := bs }

/-- ENCRYPT of two bytes running, nothing of it done: PHASE `p`, UPC `u`, CUR `c`, W = ST1, KS = `m`. -/
def running (p : Phase) (u c : BitVec 7) (m : Memory) (bs : List Byte) : State :=
  { loaded bs with
    phase := p, upc := u, cur := c, w := written st1, ks := m, op := some 0x02#8, bn := some 2#32, bi := some 0#32 }

/-- In REGEN at UPC `u`. -/
def mixing (u : BitVec 7) : State := running .regen u 0 [] []

/-- KS with the byte `b` at `j` and zeros elsewhere. -/
def ksWith (j : Nat) (b : Byte) : Memory := memWrite (fillKs 64 []) j b

/-- Four words of W after an outcome. -/
def wordsAfter (r : Result) (a b c d : Fin 16) : Option (List (Option Word)) :=
  (nextState r).map fun t => [t.w[a], t.w[b], t.w[c], t.w[d]]

/-- A test on a next state, as a statement about the outcome. -/
theorem next_of_check {r : Result} {p : State → Prop} [DecidablePred p]
    (h : ((nextState r).any fun t => decide (p t)) = true) : ∃ t, r = .next t ∧ p t := by
  cases r with
  | next t => exact ⟨t, rfl, by simpa [nextState] using h⟩
  | fault f => simp [nextState] at h
  | refused q => simp [nextState] at h

/-! ## WellFormed: what it refuses -/

/-- 30_encoding.md R72: klen has 8 bits. -/
theorem test_wf_refuses_long_key : (Instr.init (List.replicate 256 0) [] 0).wf = false := by decide +kernel

/-- 30_encoding.md R72: nlen has 8 bits. -/
theorem test_wf_refuses_long_nonce : (Instr.init [] (List.replicate 256 0) 0).wf = false := by decide +kernel

theorem test_wf_takes_longest : (Instr.init (List.replicate 255 0) (List.replicate 255 0) 0).wf = true := by decide +kernel

/-! ## Decoding: words written out from 30_encoding.md R72, R73, R80, R81 -/

theorem test_decode_ldw : decodeMicro 0b00000000#8 = .op .ldw := by decide
theorem test_decode_qrC0 : decodeMicro 0b00010000#8 = .op .qrC0 := by decide
theorem test_decode_qrC1 : decodeMicro 0b00010001#8 = .op .qrC1 := by decide
theorem test_decode_qrC2 : decodeMicro 0b00010010#8 = .op .qrC2 := by decide
theorem test_decode_qrC3 : decodeMicro 0b00010011#8 = .op .qrC3 := by decide
theorem test_decode_qrD0 : decodeMicro 0b00010100#8 = .op .qrD0 := by decide
theorem test_decode_qrD1 : decodeMicro 0b00010101#8 = .op .qrD1 := by decide
theorem test_decode_qrD2 : decodeMicro 0b00010110#8 = .op .qrD2 := by decide
theorem test_decode_qrD3 : decodeMicro 0b00010111#8 = .op .qrD3 := by decide
theorem test_decode_ffadd : decodeMicro 0b00100000#8 = .op .ffadd := by decide
theorem test_decode_ser : decodeMicro 0b00110000#8 = .op .ser := by decide
theorem test_decode_ctrinc : decodeMicro 0b01000000#8 = .op .ctrinc := by decide
theorem test_decode_curclr : decodeMicro 0b01010000#8 = .op .curclr := by decide
theorem test_decode_xorb : decodeMicro 0b01100000#8 = .op .xorb := by decide

/-- 95_test_vectors.md L2.7.5: reserved codes. -/
theorem test_decode_reserved :
    [0x01#8, 0x18#8, 0x1f#8, 0x21#8, 0x61#8, 0xff#8].map decodeMicro =
      [.reserved 0x01#8, .reserved 0x18#8, .reserved 0x1f#8, .reserved 0x21#8, .reserved 0x61#8, .reserved 0xff#8] := by
  decide

/-- 95_test_vectors.md L2.7.1. -/
theorem test_decode_init :
    decodeCommand (0x01#8 :: 0x20#8 :: 0x0c#8 :: (keyK ++ nonce1 ++ [0x01#8, 0x00#8, 0x00#8, 0x00#8])) =
      .complete (.init keyK nonce1 1) 51 := by decide

/-- 95_test_vectors.md L2.7.2; the data bytes are not the decoder's (30_encoding.md R75). -/
theorem test_decode_encrypt :
    decodeCommand [0x02#8, 0x04#8, 0x00#8, 0x00#8, 0x00#8, 0x4c#8, 0x61#8, 0x64#8, 0x69#8] = .complete (.encrypt 4) 5 := by
  decide

/-- 95_test_vectors.md L2.7.2: 300 bytes. -/
theorem test_decode_decrypt : decodeCommand [0x03#8, 0x2c#8, 0x01#8, 0x00#8, 0x00#8] = .complete (.decrypt 300) 5 := by
  decide

/-- A header that has not arrived whole (20_memory.md R65). -/
theorem test_decode_waits :
    [decodeCommand [], decodeCommand [0x01#8], decodeCommand [0x02#8, 0x04#8, 0x00#8, 0x00#8],
      decodeCommand [0x01#8, 0x00#8, 0x00#8, 0x01#8, 0x02#8, 0x03#8]] =
      [.incomplete, .incomplete, .incomplete, .incomplete] := by decide

/-- 30_encoding.md R80: the group formula on every argument. -/
theorem test_qr_groups :
    [qrGroup false 0, qrGroup false 1, qrGroup false 2, qrGroup false 3, qrGroup true 0, qrGroup true 1, qrGroup true 2,
      qrGroup true 3] =
      [(0, 4, 8, 12), (1, 5, 9, 13), (2, 6, 10, 14), (3, 7, 11, 15), (0, 5, 10, 15), (1, 6, 11, 12), (2, 7, 8, 13),
        (3, 4, 9, 14)] := by decide

/-- 95_test_vectors.md L2.7.6. -/
theorem test_rom_samples :
    [0, 1, 2, 4, 5, 8, 9, 16, 17, 72, 73, 80, 81, 82, 83, 84].map (fun u => rom[u]?) =
      [some 0x00#8, some 0x10#8, some 0x11#8, some 0x13#8, some 0x14#8, some 0x17#8, some 0x10#8, some 0x17#8, some 0x10#8,
        some 0x17#8, some 0x10#8, some 0x17#8, some 0x20#8, some 0x30#8, some 0x40#8, some 0x50#8] := by decide

/-- 30_encoding.md R81, R77: the codes of the encoder are the table's. -/
theorem test_row_codes_decode :
    [0x01, 0x02, 0x03, 0x00, 0x10, 0x11, 0x12, 0x13, 0x14, 0x15, 0x16, 0x17, 0x20, 0x30, 0x40, 0x50, 0x60].map
        (decodeTableWord 8) =
      [some (.init [] [] 0), some (.encrypt 0), some (.decrypt 0), some .ldw, some .qrC0, some .qrC1, some .qrC2,
        some .qrC3, some .qrD0, some .qrD1, some .qrD2, some .qrD3, some .ffadd, some .ser, some .ctrinc, some .curclr,
        some .xorb] := by decide +kernel

/-- Every row runs as the next instruction after reset (log 9). -/
theorem test_rows_run_after_reset :
    ∀ c ∈ [0x01, 0x02, 0x03, 0x00, 0x10, 0x11, 0x12, 0x13, 0x14, 0x15, 0x16, 0x17, 0x20, 0x30, 0x40, 0x50, 0x60],
      (nextState (step (State.reset.withFetchWord 8 c))).isSome = true := by decide +kernel

/-! ## The assembler (30_encoding.md R85, R86) -/

/-- 95_test_vectors.md L2.7.2. -/
theorem test_assemble_encrypt :
    assembleText ["ENCRYPT 4c616469 ; four bytes".toList] =
      some [0x02#8, 0x04#8, 0x00#8, 0x00#8, 0x00#8, 0x4c#8, 0x61#8, 0x64#8, 0x69#8] := by decide +kernel

/-- 95_test_vectors.md L2.7.4, and the empty operand of L1.5. -/
theorem test_assemble_skip_and_empty :
    assembleText ["SKIP 3".toList, ("DECRYPT ".toList ++ [Char.ofNat 34, Char.ofNat 34]), ".byte ff".toList] =
      some [0x02#8, 0x03#8, 0x00#8, 0x00#8, 0x00#8, 0x00#8, 0x00#8, 0x00#8, 0x03#8, 0x00#8, 0x00#8, 0x00#8, 0x00#8,
        0xff#8] := by decide +kernel

/-- 30_encoding.md R72: an INIT of one key byte and no nonce byte, and INIT0's counter 0. -/
theorem test_assemble_init :
    assembleText ["INIT key=aa, nonce=, ctr=0x04030201".toList, "INIT0 key=, nonce=bb".toList] =
      some [0x01#8, 0x01#8, 0x00#8, 0xaa#8, 0x01#8, 0x02#8, 0x03#8, 0x04#8, 0x01#8, 0x00#8, 0x01#8, 0xbb#8, 0x00#8, 0x00#8,
        0x00#8, 0x00#8] := by decide +kernel

/-! ## Arithmetic (95_test_vectors.md L2.1.1, L2.2, L2.3) -/

theorem test_le32 : le32 0xff#8 0x00#8 0x00#8 0x80#8 = 0x800000ff#32 := by decide

theorem test_add32 : add32 0x61707865#32 0x4c704011#32 = 0xade0b876#32 := by decide

theorem test_xor32 : xor32 0xffffffff#32 0x12345678#32 = 0xedcba987#32 := by decide

theorem test_rotl32 :
    [rotl32 0x12345678#32 16, rotl32 0x12345678#32 12, rotl32 0x12345678#32 8, rotl32 0x12345678#32 7] =
      [0x56781234#32, 0x45678123#32, 0x34567812#32, 0x1a2b3c09#32] := by decide

/-- 95_test_vectors.md L2.3.1. -/
theorem test_qr :
    qr 0x11111111#32 0x01020304#32 0x9b8d6f43#32 0x01234567#32 =
      (0xea2a92f4#32, 0xcb1cf8ce#32, 0x4581472e#32, 0x5881c4bb#32) := by decide

/-- 95_test_vectors.md L2.3.2: every addition carries out. -/
theorem test_qr_all_ones :
    qr 0xffffffff#32 0xffffffff#32 0xffffffff#32 0xffffffff#32 =
      (0xf0000ffd#32, 0x88790878#32, 0x0110fdef#32, 0x010ffdf0#32) := by decide

/-- 95_test_vectors.md L2.4.1: one double round on ST1. -/
theorem test_double_round :
    doubleRound st1 =
      #v[0xcd52e917#32, 0x85ab03b4#32, 0xb3457395#32, 0xf96de7dd#32, 0xc4b7cd22#32, 0x5c2e187a#32,
        0xc95eb461#32, 0x316c801a#32, 0x7bf7d740#32, 0x7eddd644#32, 0xf1a1bdf5#32, 0x761246ca#32,
        0x6b0d58a3#32, 0x6798471a#32, 0xd737f167#32, 0xf173888d#32] := by decide +kernel

/-- 95_test_vectors.md L2.4.7: what the rounds in the wrong order would give. -/
theorem test_rounds_swapped : (columnRound (diagonalRound st1))[0] = 0x482e67d7#32 := by decide +kernel

/-- 95_test_vectors.md L2.4.1: W[0] and KS[0..3] of BLOCK(ST1). -/
theorem test_block_first_word : (blockWords st1)[0] = 0xe4e7f110#32 ∧ serialByte (blockWords st1) 1 = 0xf1#8 := by
  decide +kernel

/-! ## INIT (40_init.md R100) -/

/-- The worked example of R100, from reset. -/
theorem test_init_loads :
    nextState (exec (.init keyK nonce1 1) State.reset) = some { loaded [] with rsp := [0x00#8] } := by decide +kernel

/-- 60_exceptions.md R202 cause V1, and 40_init.md R102. -/
theorem test_init_rejected :
    nextState (exec (.init (List.replicate 31 0) nonce1 1) (running .ready 0 3 [] [])) =
      some { running .ready 0 3 [] [] with rsp := [0x01#8] } := by decide +kernel

/-! ## The QR micro-ops on ST1 (41_quarter_round.md R125 to R132, 95_test_vectors.md L2.3.4) -/

theorem test_qrC0 :
    wordsAfter (exec .qrC0 (mixing 1)) 0 4 8 12 =
      some [some 0xabbaa25c#32, some 0x3a465196#32, some 0x6b3ca454#32, some 0xdec62ed2#32] := by decide +kernel

theorem test_qrC1 :
    wordsAfter (exec .qrC1 (mixing 2)) 1 5 9 13 =
      some [some 0x1efa51ea#32, some 0x1c7e64f6#32, some 0x08eb14b1#32, some 0x8862cc77#32] := by decide +kernel

theorem test_qrC2 :
    wordsAfter (exec .qrC2 (mixing 3)) 2 6 10 14 =
      some [some 0x7354fbdf#32, some 0xb12fb628#32, some 0xbf8a9ac9#32, some 0x6e35b345#32] := by decide +kernel

theorem test_qrC3 :
    wordsAfter (exec .qrC3 (mixing 4)) 3 7 11 15 =
      some [some 0x83d2dc69#32, some 0xf05b6976#32, some 0xe444df3b#32, some 0x52a647f1#32] := by decide +kernel

theorem test_qrD0 :
    wordsAfter (exec .qrD0 (mixing 5)) 0 5 10 15 =
      some [some 0xc0bf2761#32, some 0x4d18599b#32, some 0x6ed2994b#32, some 0xd64f17bd#32] := by decide +kernel

theorem test_qrD1 :
    wordsAfter (exec .qrD1 (mixing 6)) 1 6 11 12 =
      some [some 0x334f55ef#32, some 0x12e46e98#32, some 0xc50120a4#32, some 0x386bc55e#32] := by decide +kernel

theorem test_qrD2 :
    wordsAfter (exec .qrD2 (mixing 7)) 2 7 8 13 =
      some [some 0x7268fe63#32, some 0x1bb0f6a5#32, some 0xa3cfa5c8#32, some 0x567f1348#32] := by decide +kernel

theorem test_qrD3 :
    wordsAfter (exec .qrD3 (mixing 8)) 3 4 9 14 =
      some [some 0xf1a5ce5c#32, some 0x7be812e6#32, some 0x4f74b7cd#32, some 0xd1ea7e97#32] := by decide +kernel

/-- 95_test_vectors.md L2.3.3: QR.D2 leaves its neighbours. -/
theorem test_qrD2_neighbours :
    wordsAfter (exec .qrD2 (mixing 7)) 0 3 6 12 =
      some [some 0x61707865#32, some 0x6b206574#32, some 0x0b0a0908#32, some 0x00000001#32] := by decide +kernel

/-! ## LDW, FFADD, SER (95_test_vectors.md L2.4.8) -/

theorem test_ldw_copies_st1 :
    (nextState (exec .ldw { mixing 0 with w := Vector.replicate 16 none })).map (fun t => (t.w, t.upc)) =
      some (written st1, 1#7) := by decide +kernel

/-- W[0] of the L2.4.8 row. -/
theorem test_ffadd_first_word :
    (nextState (exec .ffadd { mixing 81 with w := (written st1).set 0 (some 0x4c704011#32) })).map (fun t => t.w[0]) =
      some (some 0xade0b876#32) := by decide +kernel

/-- W[12] of the L2.4.8 row: the carry is discarded. -/
theorem test_ffadd_carry :
    (nextState (exec .ffadd
        { mixing 81 with ctr := some 0xffffffff#32, w := (written st1).set 12 (some 0x5b404ff7#32) })).map
        (fun t => t.w[12]) =
      some (some 0x5b404ff6#32) := by decide +kernel

theorem test_ser_first_word :
    (nextState (exec .ser { mixing 82 with w := (written st1).set 0 (some 0xade0b876#32) })).map
        (fun t => [memRead t.ks 0, memRead t.ks 1, memRead t.ks 2, memRead t.ks 3]) =
      some [some 0x76#8, some 0xb8#8, some 0xe0#8, some 0xad#8] := by decide +kernel

theorem test_ser_last_word :
    (nextState (exec .ser { mixing 82 with w := (written st1).set 15 (some 0x8665eeb2#32) })).map
        (fun t => [memRead t.ks 60, memRead t.ks 61, memRead t.ks 62, memRead t.ks 63]) =
      some [some 0xb2#8, some 0xee#8, some 0x65#8, some 0x86#8] := by decide +kernel

/-! ## CTRINC, CURCLR, XORB (95_test_vectors.md L2.5.1) -/

theorem test_ctrinc : (nextState (exec .ctrinc { mixing 83 with ctr := some 0x0000003f#32 })).map (·.ctr) =
    some (some 0x00000040#32) := by decide +kernel

theorem test_ctrinc_wraps : (nextState (exec .ctrinc { mixing 83 with ctr := some 0xffffffff#32 })).map (·.ctr) =
    some (some 0x00000000#32) := by decide +kernel

theorem test_curclr : (nextState (exec .curclr (running .regen 84 64 [] []))).map (fun t => (t.cur, t.phase, t.upc)) =
    some (0#7, .xfer, 0#7) := by decide +kernel

theorem test_xorb_first : (nextState (exec .xorb (running .xfer 0 0 (ksWith 0 0x22#8) [0x4c#8]))).map
      (fun t => (t.rsp, t.cur, t.bi, t.phase)) = some ([0x6e#8], 1#7, some 1#32, .loop) := by decide +kernel

theorem test_xorb_last : (nextState (exec .xorb { running .loop 0 63 (ksWith 63 0xb7#8) [0xff#8] with bi := some 1#32 })).map
      (fun t => (t.rsp, t.cur, t.bi, t.phase)) = some ([0x48#8], 64#7, some 2#32, .ready) := by decide +kernel

/-! ## ENCRYPT, DECRYPT and the errors (95_test_vectors.md L2.6) -/

theorem test_encrypt_accepted :
    (nextState (exec (.encrypt 64) (loaded []))).map (fun t => (t.op, t.bn, t.bi, t.phase, t.rsp)) =
      some (some 0x02#8, some 64#32, some 0#32, .loop, [0x00#8]) := by decide +kernel

/-- n = 0 after INIT: cause V3. -/
theorem test_encrypt_empty : nextState (exec (.encrypt 0) (loaded [])) = some { loaded [] with rsp := [0x01#8] } := by
  decide +kernel

/-- n = 0 before INIT: NOT_INITIALIZED wins. -/
theorem test_decrypt_empty_uninitialized :
    nextState (exec (.decrypt 0) State.reset) = some { State.reset with rsp := [0x02#8] } := by decide +kernel

/-- DECRYPT before INIT: its payload 01 01 is discarded. -/
theorem test_decrypt_uninitialized :
    nextState (step { State.reset with cmd := [0x03#8, 0x02#8, 0x00#8, 0x00#8, 0x00#8, 0x01#8, 0x01#8] }) =
      some { State.reset with rsp := [0x02#8] } := by decide +kernel

/-- Opcode 0x80, then a command: the next byte is a header. -/
theorem test_illegal_opcode :
    nextState (step { State.reset with cmd := [0x80#8, 0x02#8] }) =
      some { State.reset with cmd := [0x02#8], rsp := [0x03#8] } := by decide +kernel

/-! ## Steps of the sequencer (95_test_vectors.md L2.9) and reset (L2.8) -/

/-- Row 1. -/
theorem test_step_accepts :
    (nextState (step (loaded [0x02#8, 0x40#8, 0x00#8, 0x00#8, 0x00#8, 0xaa#8]))).map
        (fun t => (t.phase, t.bn, t.cmd, t.rx, t.rsp)) =
      some (.loop, some 64#32, [0xaa#8], [], [0x00#8]) := by decide +kernel

/-- Row 2, and row 22. -/
theorem test_step_test_fires :
    [(nextState (step (running .loop 0 0 [] []))).map (fun t => (t.phase, t.upc)),
      (nextState (step (running .loop 0 64 (ksWith 0 0) []))).map (fun t => (t.phase, t.upc))] =
      [some (.regen, 0#7), some (.regen, 0#7)] := by decide +kernel

/-- Row 20: at CUR = 63 the test does not fire. -/
theorem test_step_test_does_not_fire :
    (nextState (step { running .loop 0 63 (ksWith 63 0x86#8) [0x00#8] with bi := some 1#32 })).map
        (fun t => (t.rsp, t.cur, t.phase)) = some ([0x86#8], 64#7, .ready) := by decide +kernel

/-- Row 16. -/
theorem test_step_ends_regen :
    (nextState (step (mixing 84))).map (fun t => (t.cur, t.phase, t.upc)) = some (0#7, .xfer, 0#7) := by decide +kernel

/-- L2.8.3: reset during a command; the bytes not yet taken stay. -/
theorem test_reset_aborts :
    nextState (step { running .loop 0 2 (ksWith 0 0x22#8) [0x00#8, 0x00#8, 0x00#8] with
      rsp := [0x00#8, 0x22#8, 0x4f#8], resetLine := true }) =
      some { State.reset with cmd := [0x00#8, 0x00#8, 0x00#8], rsp := [0x00#8, 0x22#8, 0x4f#8] } := by decide +kernel

/-- A withheld Send changes nothing but what has been taken (70_reset_and_hazards.md R240). -/
theorem test_send_waits :
    nextState (step { running .xfer 0 0 (ksWith 0 0x22#8) [0x4c#8] with rspReady := false }) =
      some { running .xfer 0 0 (ksWith 0 0x22#8) [] with rspReady := false, rx := [0x4c#8] } := by decide +kernel

/-- 95_test_vectors.md L2.5.3. -/
theorem test_regen_count :
    [regenCount 0 1, regenCount 0 65, regenCount 64 64, regenCount 1 63, regenCount 1 64, regenCount 50 14, regenCount 63 2,
      regenCount 32 200] = [1, 2, 1, 0, 1, 0, 1, 3] := by decide

/-! ## Witnesses: what meets the hypotheses of each obligation

A conclusion is repeated beside the hypotheses only where it shows that the case is the one meant. -/

/-- The bytes of an accepted INIT. -/
def initBytes : List Byte := encode (.init keyK nonce1 1)

theorem test_witness_ResetLeavesSpecState : ∃ i : Fin 16, 4 ≤ i.val ∧ i.val = 4 := ⟨4, by decide, rfl⟩

/-- An INIT that changes key and nonce. -/
theorem test_witness_OnlyInitAndCtrincWriteS_init :
    (State.reset.hostSend initBytes).resetLine = false ∧
      ∃ t, step (State.reset.hostSend initBytes) = .next t ∧
        (t.key ≠ (State.reset.hostSend initBytes).key ∧ t.nonce ≠ (State.reset.hostSend initBytes).nonce ∧
          t.ctr ≠ (State.reset.hostSend initBytes).ctr) := ⟨rfl, next_of_check (by decide +kernel)⟩

/-- A CTRINC that changes the counter. -/
theorem test_witness_OnlyInitAndCtrincWriteS_ctrinc :
    (mixing 83).resetLine = false ∧ ∃ t, step (mixing 83) = .next t ∧ t.ctr ≠ (mixing 83).ctr :=
  ⟨rfl, next_of_check (by decide +kernel)⟩

theorem test_witness_InitdSetByInitClearedByReset_kept :
    (loaded []).initd = true ∧ (loaded []).resetLine = false ∧ ∃ t, step (loaded []) = .next t ∧ t.initd = true :=
  ⟨rfl, rfl, next_of_check (by decide +kernel)⟩

theorem test_witness_InitdSetByInitClearedByReset_cleared :
    (loaded []).assertReset.resetLine = true ∧ ∃ t, step (loaded []).assertReset = .next t ∧ t.initd = false :=
  ⟨rfl, next_of_check (by decide +kernel)⟩

theorem test_witness_InitdSetByInitClearedByReset_set :
    (State.reset.hostSend initBytes).initd = false ∧
      ∃ t, step (State.reset.hostSend initBytes) = .next t ∧ t.initd = true :=
  ⟨rfl, next_of_check (by decide +kernel)⟩

theorem test_witness_OnlySerWritesKs :
    (mixing 82).resetLine = false ∧ ∃ t, step (mixing 82) = .next t ∧ t.ks ≠ (mixing 82).ks :=
  ⟨rfl, next_of_check (by decide +kernel)⟩

theorem test_witness_DecodeOfEncodeIsIdentity :
    ((Instr.init (List.replicate 255 0) (List.replicate 255 0) 7).wf = true ∧
      (Instr.init (List.replicate 255 0) (List.replicate 255 0) 7).isCommand = true) ∧
    (Instr.xorb.wf = true ∧ Instr.xorb.isCommand = false) := by decide +kernel

theorem test_witness_EncodeOfDecodeIsIdentity :
    decodeCommand [0x03#8, 0xff#8, 0xff#8, 0xff#8, 0xff#8] = .complete (.decrypt 0xffffffff#32) 5 := by decide

theorem test_witness_CommandFields :
    (([] : List Byte).length = (0x00#8).toNat) ∧ ((List.replicate 255 0x5a#8).length = (0xff#8).toNat) := by
  decide +kernel

/-- The line-by-line trace of 95_test_vectors.md L2.3.1 meets the twelve equations. -/
theorem test_witness_QuarterRoundIsABijection :
    ∃ a b c d a1 d1 c1 b1 a2 d2 c2 b2 : Word,
      a1 = a + b ∧ d1 = (d ^^^ a1) <<< 16 ||| (d ^^^ a1) >>> 16 ∧
      c1 = c + d1 ∧ b1 = (b ^^^ c1) <<< 12 ||| (b ^^^ c1) >>> 20 ∧
      a2 = a1 + b1 ∧ d2 = (d1 ^^^ a2) <<< 8 ||| (d1 ^^^ a2) >>> 24 ∧
      c2 = c1 + d2 ∧ b2 = (b1 ^^^ c2) <<< 7 ||| (b1 ^^^ c2) >>> 25 ∧ b2 = 0xcb1cf8ce#32 :=
  ⟨0x11111111#32, 0x01020304#32, 0x9b8d6f43#32, 0x01234567#32, 0x12131415#32, 0x51721330#32, 0xecff8273#32, 0xd8177edf#32,
    0xea2a92f4#32, 0x5881c4bb#32, 0x4581472e#32, 0xcb1cf8ce#32, by decide⟩

theorem test_witness_BlockFunctionAsStated :
    (∃ x y : Vector Word 16, x = st1 ∧ y = columnRound x) ∧ (∃ x y : Vector Word 16, x = st1 ∧ y = diagonalRound x) ∧
      ∃ (k : Fin 16) (m : Fin 4) (j : Fin 64), j.val = 4 * k.val + m.val ∧ j.val = 63 :=
  ⟨⟨st1, _, rfl, rfl⟩, ⟨st1, _, rfl, rfl⟩, ⟨15, 3, 63, rfl, rfl⟩⟩

theorem test_witness_MicroOpCodes :
    0x01#8 ∉ [0x00#8, 0x10#8, 0x11#8, 0x12#8, 0x13#8, 0x14#8, 0x15#8, 0x16#8, 0x17#8, 0x20#8, 0x30#8, 0x40#8, 0x50#8,
      0x60#8] ∧
    0xff#8 ∉ [0x00#8, 0x10#8, 0x11#8, 0x12#8, 0x13#8, 0x14#8, 0x15#8, 0x16#8, 0x17#8, 0x20#8, 0x30#8, 0x40#8, 0x50#8,
      0x60#8] := by decide

theorem test_witness_RomContents :
    ∃ r g : Nat, r < 10 ∧ g < 8 ∧ rom[1 + 8 * r + g]? = some 0x17#8 ∧ 1 + 8 * r + g = 80 :=
  ⟨9, 7, by decide, by decide, by decide, by decide⟩

theorem test_witness_RotationIsABijection :
    (∃ n : Nat, 1 ≤ n ∧ n ≤ 31 ∧ n = 1) ∧ ∃ n : Nat, 1 ≤ n ∧ n ≤ 31 ∧ n = 31 :=
  ⟨⟨1, by decide, by decide, rfl⟩, ⟨31, by decide, by decide, rfl⟩⟩

/-- The four QRs in another order. -/
theorem test_witness_OrderWithinARoundIsImmaterial_column :
    ∃ l : List (Vector Word 16 → Vector Word 16),
      l.Perm [qrAt 0 4 8 12, qrAt 1 5 9 13, qrAt 2 6 10 14, qrAt 3 7 11 15] ∧
      l = [qrAt 3 7 11 15, qrAt 2 6 10 14, qrAt 1 5 9 13, qrAt 0 4 8 12] :=
  ⟨_, List.reverse_perm [qrAt 0 4 8 12, qrAt 1 5 9 13, qrAt 2 6 10 14, qrAt 3 7 11 15], rfl⟩

theorem test_witness_OrderWithinARoundIsImmaterial_diagonal :
    ∃ l : List (Vector Word 16 → Vector Word 16),
      l.Perm [qrAt 0 5 10 15, qrAt 1 6 11 12, qrAt 2 7 8 13, qrAt 3 4 9 14] ∧
      l = [qrAt 3 4 9 14, qrAt 2 7 8 13, qrAt 1 6 11 12, qrAt 0 5 10 15] :=
  ⟨_, List.reverse_perm [qrAt 0 5 10 15, qrAt 1 6 11 12, qrAt 2 7 8 13, qrAt 3 4 9 14], rfl⟩

theorem test_witness_QrMicroOpsMixTheirGroups : ∀ j : Fin 16, (mixing 1).w[j] = some st1[j] := by decide +kernel

theorem test_witness_sWritten : (mixing 81).sWritten := by unfold State.sWritten; decide +kernel

theorem test_witness_wWritten : (mixing 81).wWritten := by unfold State.wWritten; decide +kernel

theorem test_witness_LdwCopiesState : (loaded []).sWritten := by unfold State.sWritten; decide +kernel

theorem test_witness_FfaddAddsState : (mixing 81).sWritten ∧ (mixing 81).wWritten :=
  ⟨test_witness_sWritten, test_witness_wWritten⟩

theorem test_witness_SerSerializesLittleEndian : (mixing 82).wWritten := by unfold State.wWritten; decide +kernel

theorem test_witness_CtrincIncrementsCounter :
    (mixing 83).readS 12 = some 0x00000001#32 ∧
      State.readS { mixing 83 with ctr := some 0xffffffff#32 } 12 = some 0xffffffff#32 := by decide +kernel

/-- CUR at both ends of 0..63. -/
theorem test_witness_XorbCombinesOneByte :
    ∀ c ∈ [0#7, 63#7],
      let s := running .loop 0 c (ksWith 0 0x22#8) [0x4c#8]
      s.bn = some 2#32 ∧ s.bi = some 0#32 ∧ 0#32 < 2#32 ∧ s.cur ≤ 63#7 ∧ s.rx ++ s.cmd = 0x4c#8 :: [] ∧
        (memRead s.ks s.cur.toNat).isSome = true ∧ s.rspReady = true := by decide +kernel

theorem test_witness_XorbCombinesOneByte_waits :
    let s := running .xfer 0 0 (ksWith 0 0x22#8) []
    s.bn = some 2#32 ∧ s.bi = some 0#32 ∧ 0#32 < 2#32 ∧ s.cur ≤ 63#7 ∧ s.rx ++ s.cmd = [] := by decide +kernel

theorem test_witness_UnwrittenReadsFault_unwritten :
    ¬ State.reset.sWritten ∧ ¬ State.reset.wWritten ∧ State.reset.readS 12 = none ∧
      (∀ j : Fin 16, State.reset.w[j] = none) ∧ (State.reset.bn = none ∧ State.reset.bi = none) := by
  unfold State.sWritten State.wWritten; decide +kernel

theorem test_witness_UnwrittenReadsFault_ffadd :
    State.wWritten { State.reset with w := written st1 } ∧ ¬ State.sWritten { State.reset with w := written st1 } := by
  unfold State.sWritten State.wWritten; decide +kernel

theorem test_witness_UnwrittenReadsFault_xorb :
    let s := running .xfer 0 63 [] [0x4c#8]
    s.bn = some 2#32 ∧ s.bi = some 0#32 ∧ 0#32 < 2#32 ∧ s.cur ≤ 63#7 ∧ s.rx ++ s.cmd = 0x4c#8 :: [] ∧
      memRead s.ks s.cur.toNat = none := by decide +kernel

/-- For InitLoadsCipherState and InitStartsFreshKeystream. -/
theorem test_witness_InitLoadsCipherState :
    keyK.length = 32 ∧ nonce1.length = 12 ∧ State.reset.rspReady = true ∧ (loaded []).rspReady = true := by
  decide +kernel

theorem test_witness_RejectedInitChangesNothing :
    ((List.replicate 33 0x00#8).length ≠ 32 ∨ nonce1.length ≠ 12) ∧
      (keyK.length ≠ 32 ∨ (List.replicate 11 0x00#8).length ≠ 12) ∧ (loaded []).rspReady = true := by decide +kernel

theorem test_witness_StreamCommandsAccepted :
    (loaded []).initd = true ∧ 1#32 ≠ 0#32 ∧ 0xffffffff#32 ≠ 0#32 ∧ (loaded []).rspReady = true := by decide +kernel

theorem test_witness_EmptyDataRejected : (loaded []).initd = true ∧ (loaded []).rspReady = true := ⟨rfl, rfl⟩

/-- n = 0, n met exactly, and one byte missing. -/
theorem test_witness_UninitializedRejectedWithPayload :
    let s := { State.reset with cmd := [0x01#8, 0x01#8] }
    s.initd = false ∧ (0#32).toNat ≤ s.cmd.length ∧ (2#32).toNat ≤ s.cmd.length ∧ s.rspReady = true ∧
      s.cmd.length < (3#32).toNat := by decide +kernel

/-- An acceptance, and two outcomes that are none: n = 0, and a host that takes no byte. -/
theorem test_witness_DecryptIsEncryptButForOp :
    ((loaded []).initd = true ∧ 1#32 ≠ 0#32 ∧ (loaded []).rspReady = true) ∧
      ¬ ((loaded []).initd = true ∧ 0#32 ≠ 0#32 ∧ (loaded []).rspReady = true) ∧
      ¬ (State.initd (State.hostReady false (loaded [])) = true ∧ 1#32 ≠ 0#32 ∧
        State.rspReady (State.hostReady false (loaded [])) = true) := by decide +kernel

theorem test_witness_DecryptIsEncryptButForOp_step : ∃ t, step (mixing 0) = .next t ∧ t.upc = 1#7 :=
  next_of_check (by decide +kernel)

theorem test_witness_FrameOfWorkingBufferOps :
    ∀ i ∈ [Instr.ldw, .ffadd, .qrC0, .qrC1, .qrC2, .qrC3, .qrD0, .qrD1, .qrD2, .qrD3],
      (nextState (exec i (mixing 0))).isSome = true := by decide +kernel

theorem test_witness_FrameOfSerCtrincCurclr :
    ∀ i ∈ [Instr.ser, .ctrinc, .curclr], (nextState (exec i (mixing 82))).isSome = true := by decide +kernel

theorem test_witness_FrameOfXorb :
    ∃ t, exec .xorb (running .xfer 0 0 (ksWith 0 0x22#8) [0x4c#8]) = .next t ∧ t.rsp = [0x6e#8] :=
  next_of_check (by decide +kernel)

theorem test_witness_FrameOfCommands :
    ∀ i ∈ [Instr.init keyK nonce1 1, .encrypt 2, .decrypt 0], (nextState (exec i (loaded []))).isSome = true := by
  decide +kernel

/-- For StepRunsDecodedCommand; the bytes of the header are partly taken already. -/
theorem test_witness_StepRunsDecodedCommand :
    let s := { loaded [0x00#8, 0x00#8, 0x00#8] with rx := [0x02#8, 0x05#8] }
    s.resetLine = false ∧ s.controlFault = none ∧ s.phase = .ready ∧
      decodeCommand (s.rx ++ s.cmd) = .complete (.encrypt 5) 5 := by decide +kernel

theorem test_witness_StepRunsSequencedMicroOp_regen :
    ((mixing 0).resetLine = false ∧ (mixing 0).controlFault = none ∧ (mixing 0).phase = .regen ∧
      rom[(mixing 0).upc.toNat]? = some 0x00#8 ∧ decodeMicro 0x00#8 = .op .ldw) ∧
    ((mixing 84).resetLine = false ∧ (mixing 84).controlFault = none ∧ (mixing 84).phase = .regen ∧
      rom[(mixing 84).upc.toNat]? = some 0x50#8 ∧ decodeMicro 0x50#8 = .op .curclr) := by decide +kernel

/-- XFER at CUR 0, LOOP at CUR 0 and 64 where the test fires, and at 1 and 63 where it does not. -/
theorem test_witness_StepRunsSequencedMicroOp_others :
    (∀ c ∈ [0#7, 1#7, 63#7, 64#7],
      (running .loop 0 c [] []).resetLine = false ∧ (running .loop 0 c [] []).controlFault = none ∧
        (running .loop 0 c [] []).phase = .loop) ∧
    ((running .xfer 0 0 [] []).resetLine = false ∧ (running .xfer 0 0 [] []).controlFault = none ∧
      (running .xfer 0 0 [] []).phase = .xfer) ∧
    (63#7 ≠ 0#7 ∧ 63#7 ≠ 64#7 ∧ 1#7 ≠ 0#7 ∧ 1#7 ≠ 64#7) := by decide +kernel

theorem test_witness_IllegalCommandConsumesOneByte :
    ∀ op ∈ [0x00#8, 0x04#8, 0xff#8],
      ((loaded [op]).resetLine = false ∧ (loaded [op]).rspReady = true) ∧ (loaded [op]).controlFault = none ∧
        (loaded [op]).phase = .ready ∧ (loaded [op]).rx ++ (loaded [op]).cmd = op :: [] ∧ (op = 0x00#8 ∨ 0x04#8 ≤ op) := by
  decide +kernel

/-- One state for each error status of ErrorCausesAndPriority. -/
theorem test_witness_ErrorCausesAndPriority :
    (∃ t, step (loaded [0x80#8]) = .next t ∧ t.rsp = [0x03#8]) ∧
    (∃ t, step (State.reset.hostSend [0x03#8, 0x00#8, 0x00#8, 0x00#8, 0x00#8]) = .next t ∧ t.rsp = [0x02#8]) ∧
    (∃ t, step (loaded [0x01#8, 0x00#8, 0x00#8, 0x00#8, 0x00#8, 0x00#8, 0x00#8]) = .next t ∧ t.rsp = [0x01#8]) ∧
    (∃ t, step (loaded [0x02#8, 0x00#8, 0x00#8, 0x00#8, 0x00#8]) = .next t ∧ t.rsp = [0x01#8]) :=
  ⟨next_of_check (by decide +kernel), next_of_check (by decide +kernel), next_of_check (by decide +kernel),
    next_of_check (by decide +kernel)⟩

theorem test_witness_ErrorCausesAndPriority_free :
    (loaded [0x80#8]).free ∧ (loaded [0x80#8]).controlFault = none ∧ (loaded [0x80#8]).phase = .ready :=
  ⟨⟨rfl, rfl⟩, by decide +kernel, rfl⟩

theorem test_witness_RejectionWritesNoState :
    (loaded [0x00#8]).phase = .ready ∧
      ∃ t, step (loaded [0x00#8]) = .next t ∧ t.rsp = (loaded [0x00#8]).rsp ++ [0x03#8] :=
  ⟨rfl, next_of_check (by decide +kernel)⟩

/-- From READY into LOOP, and out of XFER and LOOP on the last byte and on another. -/
theorem test_witness_PhaseTransitions :
    (∃ t, step (loaded [0x02#8, 0x01#8, 0x00#8, 0x00#8, 0x00#8]) = .next t ∧ t.phase = .loop) ∧
    (∃ t, step (running .loop 0 64 [] []) = .next t ∧ t.phase = .regen) ∧
    (∃ t, step { running .loop 0 63 (ksWith 0 0) [0x00#8] with bi := some 1#32 } = .next t ∧ t.phase = .ready) ∧
    (∃ t, step (running .loop 0 1 (ksWith 0 0) [0x00#8]) = .next t ∧ t.phase = .loop) ∧
    (∃ t, step (mixing 83) = .next t ∧ t.phase = .regen) ∧ (∃ t, step (mixing 84) = .next t ∧ t.phase = .xfer) ∧
    (∃ t, step (running .xfer 0 0 (ksWith 0 0) [0x00#8]) = .next t ∧ t.phase = .loop) :=
  ⟨next_of_check (by decide +kernel), next_of_check (by decide +kernel), next_of_check (by decide +kernel),
    next_of_check (by decide +kernel), next_of_check (by decide +kernel), next_of_check (by decide +kernel),
    next_of_check (by decide +kernel)⟩

theorem test_witness_RegenSequencerControl :
    ((mixing 83).resetLine = false ∧ (mixing 83).phase = .regen ∧ (mixing 83).upc ≠ 84#7 ∧
      ∃ t, step (mixing 83) = .next t ∧ t.upc = 84#7) ∧
    ((mixing 84).resetLine = false ∧ (mixing 84).phase = .regen ∧ (mixing 84).upc = 84#7 ∧
      ∃ t, step (mixing 84) = .next t ∧ t.phase = .xfer) ∧
    ∃ t, step (running .loop 0 0 [] []) = .next t ∧ t.phase = .regen :=
  ⟨⟨rfl, rfl, by decide, next_of_check (by decide +kernel)⟩, ⟨rfl, rfl, rfl, next_of_check (by decide +kernel)⟩,
    next_of_check (by decide +kernel)⟩

/-- UPC at both ends of 0..82. -/
theorem test_witness_BlockFunctionLeavesCounterAndCursor :
    (mixing 0).resetLine = false ∧ (mixing 0).phase = .regen ∧ (mixing 0).upc ≤ 82#7 ∧
      (∃ t, step (mixing 0) = .next t ∧ t.upc = 1#7) ∧ (mixing 82).upc ≤ 82#7 ∧
      ∃ t, step (mixing 82) = .next t ∧ t.upc = 83#7 :=
  ⟨rfl, rfl, by decide, next_of_check (by decide +kernel), by decide, next_of_check (by decide +kernel)⟩

theorem test_witness_WaitingChangesNothing_command :
    let s := loaded [0x02#8, 0x01#8]
    s.resetLine = false ∧ s.controlFault = none ∧ s.phase = .ready ∧ decodeCommand (s.rx ++ s.cmd) = .incomplete := by
  decide +kernel

/-- A payload of two bytes of which one has arrived. -/
theorem test_witness_WaitingChangesNothing_payload :
    let s := State.reset.hostSend [0x03#8, 0x02#8, 0x00#8, 0x00#8, 0x00#8, 0x01#8]
    s.resetLine = false ∧ s.controlFault = none ∧ s.phase = .ready ∧ s.initd = false ∧
      decodeCommand (s.rx ++ s.cmd) = .complete (.decrypt 2#32) 5 ∧
      (s.rx ++ s.cmd).length < 5 + (2#32).toNat := by decide +kernel

/-- XORB without its data byte, in XFER, and in LOOP at CUR 1 and 63. -/
theorem test_witness_WaitingChangesNothing_data :
    ∀ s ∈ [running .xfer 0 0 [] [], running .loop 0 1 [] [], running .loop 0 63 [] []],
      s.resetLine = false ∧ s.controlFault = none ∧
        ((s.phase = .xfer ∧ s.cur ≠ 64#7) ∨ (s.phase = .loop ∧ s.cur ≠ 0#7 ∧ s.cur ≠ 64#7)) ∧ s.rx ++ s.cmd = [] := by
  decide +kernel

/-- A withheld Send in READY, in XFER and in LOOP. -/
theorem test_witness_WaitingChangesNothing_send :
    ∀ s ∈ [loaded [0x00#8], running .xfer 0 0 (ksWith 0 0) [0x00#8], running .loop 0 63 (ksWith 0 0) [0x00#8]],
      (s.hostReady false).resetLine = false ∧ (s.hostReady false).rspReady = false ∧
        (s.phase = .ready ∨ s.phase = .xfer ∨ (s.phase = .loop ∧ s.cur ≠ 0#7 ∧ s.cur ≠ 64#7)) ∧
        (nextState (step (s.hostReady false))).isSome = true := by decide +kernel

theorem test_witness_ResetAbortsAtOnce :
    (running .loop 0 2 (ksWith 0 0) [0x00#8]).assertReset.resetLine = true := rfl

/-- CUR = 65, UPC = 85, an unwritten context, BI = BN, and XFER with CUR = 64. -/
theorem test_witness_ImpossiblePositionsFault :
    (64#7 < (running .ready 0 65 [] []).cur) ∧
    ((mixing 85).cur ≤ 64#7 ∧ 84#7 < (mixing 85).upc) ∧
    (let s := { running .loop 0 64 [] [] with bn := none };
      s.cur ≤ 64#7 ∧ s.upc ≤ 84#7 ∧ s.phase ≠ .ready ∧ (s.bn = none ∨ s.bi = none)) ∧
    (let s := { mixing 84 with bi := some 2#32 };
      s.cur ≤ 64#7 ∧ s.upc ≤ 84#7 ∧ s.phase ≠ .ready ∧ s.bn = some 2#32 ∧ s.bi = some 2#32 ∧ 2#32 ≤ 2#32) ∧
    (let s := { mixing 0 with bn := some 0#32 };
      s.cur ≤ 64#7 ∧ s.upc ≤ 84#7 ∧ s.phase ≠ .ready ∧ s.bn = some 0#32 ∧ s.bi = some 0#32 ∧ 0#32 ≤ 0#32) ∧
    (let s := running .xfer 0 64 [] [];
      s.bn = some 2#32 ∧ s.bi = some 0#32 ∧ 0#32 < 2#32 ∧ s.upc ≤ 84#7 ∧ s.phase = .xfer ∧ s.cur = 64#7) := by
  decide +kernel

/-- A running state meets the invariant where its cells are written. -/
theorem running_inv (p : Phase) (u c : BitVec 7) (m : Memory) (bs : List Byte) (hc : c ≤ 64#7)
    (hx : p = .xfer → c = 0#7) (ho : p ≠ .regen → u = 0#7) (hu : u ≤ 84#7) (hr : p = .regen → c = 0#7 ∨ c = 64#7)
    (hk : ∀ j : Fin 64, (memRead m j.val).isSome = true) (hm : Memory.wf m = true) : (running p u c m bs).Inv where
  cursor := hc
  initd := ⟨fun _ => by unfold State.sWritten; exact test_witness_sWritten, fun _ => rfl⟩
  keystream := fun _ _ => hk
  context := fun _ => ⟨rfl, 2#32, 0#32, rfl, rfl, by decide⟩
  xfer := fun h => ⟨hx h, hk⟩
  outside := ho
  inside := hu
  regenCur := hr
  regenW := fun _ _ => by unfold State.wWritten; exact test_witness_wWritten
  regenKs := fun _ _ => hk
  memory := hm

theorem test_ks_written : ∀ j : Fin 64, (memRead (fillKs 64 []) j.val).isSome = true := by decide +kernel

/-- For StepKeepsInvariant and InvariantExcludesFaults: LOOP at CUR 63 and 64, REGEN at UPC 0 and 84, XFER. -/
theorem test_witness_StepKeepsInvariant :
    (running .loop 0 63 (fillKs 64 []) []).Inv ∧ (running .loop 0 64 (fillKs 64 []) []).Inv ∧
      (running .regen 0 64 (fillKs 64 []) []).Inv ∧ (running .regen 84 0 (fillKs 64 []) []).Inv ∧
      (running .xfer 0 0 (fillKs 64 []) []).Inv :=
  ⟨running_inv _ _ _ _ _ (by decide) (by decide) (by decide) (by decide) (by decide) test_ks_written (by decide +kernel),
    running_inv _ _ _ _ _ (by decide) (by decide) (by decide) (by decide) (by decide) test_ks_written (by decide +kernel),
    running_inv _ _ _ _ _ (by decide) (by decide) (by decide) (by decide) (by decide) test_ks_written (by decide +kernel),
    running_inv _ _ _ _ _ (by decide) (by decide) (by decide) (by decide) (by decide) test_ks_written (by decide +kernel),
    running_inv _ _ _ _ _ (by decide) (by decide) (by decide) (by decide) (by decide) test_ks_written (by decide +kernel)⟩

theorem test_witness_StepKeepsInvariant_steps :
    ∃ t, step (running .loop 0 63 (fillKs 64 []) [0xff#8]) = .next t ∧ t.cur = 64#7 := next_of_check (by decide +kernel)

theorem test_witness_StepKeepsKsCanonical :
    Memory.wf (mixing 82).ks = true ∧ ∃ t, step (mixing 82) = .next t ∧ t.ks.length = 64 :=
  ⟨by decide +kernel, next_of_check (by decide +kernel)⟩

/-- Other words in S[4..11] and W, as many of them written, and other bytes on the command stream. -/
theorem same_control_other_values (s : State) (k : Vector (Option Word) 8) (w : Vector (Option Word) 16) (c : List Byte)
    (hs : ∀ i : Fin 16, (State.readS { s with key := k, w := w, cmd := c } i).isSome = (s.readS i).isSome)
    (hw : ∀ i : Fin 16, (w[i]).isSome = (s.w[i]).isSome) (hl : c.length = s.cmd.length)
    (hc : (s.rx ++ c).take s.valueSpan.1 = s.stream.take s.valueSpan.1 ∧
      (s.rx ++ c).drop (s.valueSpan.1 + s.valueSpan.2) = s.stream.drop (s.valueSpan.1 + s.valueSpan.2)) :
    s.SameControl { s with key := k, w := w, cmd := c } where
  sWritten := hs
  wWritten := hw
  ksWritten := fun _ => rfl
  position := ⟨rfl, rfl, rfl, rfl⟩
  context := ⟨rfl, rfl, rfl⟩
  arrived := ⟨rfl, hl⟩
  commands := hc
  responses := rfl
  inputs := ⟨rfl, rfl⟩

/-- In LOOP with both data bytes of the command different, the byte after them not. -/
theorem test_witness_ControlIsIndependentOfData :
    (running .loop 0 63 (ksWith 0 0x22#8) [0xff#8, 0x01#8, 0x02#8]).SameControl
        { running .loop 0 63 (ksWith 0 0x22#8) [0xff#8, 0x01#8, 0x02#8] with
          key := written (Vector.replicate 8 0), w := written (Vector.replicate 16 5), cmd := [0x0f#8, 0xf0#8, 0x02#8] } ∧
      (running .loop 0 63 (ksWith 0 0x22#8) [0xff#8, 0x01#8, 0x02#8]).resetLine = false :=
  ⟨same_control_other_values _ _ _ _ (by decide +kernel) (by decide +kernel) rfl (by decide +kernel), rfl⟩

/-- In READY, an INIT with another key byte and another counter byte; and an asserted reset with the same stream. -/
theorem test_witness_ControlIsIndependentOfData_init :
    (loaded [0x01#8, 0x01#8, 0x00#8, 0xaa#8, 0x01#8, 0x00#8, 0x00#8, 0x00#8, 0x80#8]).SameControl
        { loaded [0x01#8, 0x01#8, 0x00#8, 0xaa#8, 0x01#8, 0x00#8, 0x00#8, 0x00#8, 0x80#8] with
          key := written (Vector.replicate 8 0), w := Vector.replicate 16 none
          cmd := [0x01#8, 0x01#8, 0x00#8, 0xbb#8, 0x01#8, 0x00#8, 0x00#8, 0xff#8, 0x80#8] } :=
  same_control_other_values _ _ _ _ (by decide +kernel) (by decide +kernel) rfl (by decide +kernel)

theorem test_witness_ControlIsIndependentOfData_reset :
    (loaded [0x80#8]).assertReset.SameControl
        { (loaded [0x80#8]).assertReset with key := written (Vector.replicate 8 0), w := Vector.replicate 16 none, cmd := [0x80#8] } ∧
      (loaded [0x80#8]).assertReset.resetLine = true :=
  ⟨same_control_other_values _ _ _ _ (by decide +kernel) (by decide +kernel) rfl (by decide +kernel), rfl⟩

/-- For KsIsBlockAfterSer and RegenNetEffect. -/
theorem test_witness_RegenNetEffect :
    (mixing 0).resetLine = false ∧ (mixing 0).controlFault = none ∧ (mixing 0).phase = .regen ∧ (mixing 0).upc = 0#7 ∧
      ∀ i : Fin 16, (mixing 0).readS i = some st1[i] := by decide +kernel

/-- Right after INIT: offset 0. -/
theorem test_positioned_start (bs : List Byte) : (loaded bs).Positioned key1 nonceWords1 1 0 where
  initd := rfl
  key := rfl
  nonce := rfl
  ctr := congrArg some (by decide : (0x00000001#32 : Word) = 1 + BitVec.ofNat 32 ((0 + 63) / 64))
  cur := rfl
  ks := fun h => absurd rfl h

/-- A block after 64 or 65 data bytes: `b` blocks generated, the cursor at `c`, KS the last block. -/
def midStream (b : Nat) (c : BitVec 7) (bs : List Byte) : State :=
  { loaded bs with
    ctr := some (1 + BitVec.ofNat 32 b), cur := c,
    ks := serialize [] (blockWords (cipherWords key1 (1 + BitVec.ofNat 32 (b - 1)) nonceWords1)) }

theorem midStream_ks (b : Nat) (c : BitVec 7) (bs : List Byte) :
    (midStream b c bs).ks =
      serialize [] (blockWords (cipherWords key1 (1 + BitVec.ofNat 32 (b - 1)) nonceWords1)) := by
  simp only [midStream]

/-- At a block boundary (64 bytes, CUR = 64), and one byte past it (65 bytes, CUR = 1). -/
theorem test_positioned_middle (k b : Nat) (c : BitVec 7) (bs : List Byte) (hk : k ≠ 0) (hb : b = (k + 63) / 64)
    (hc : c.toNat = (k - 1) % 64 + 1) : (midStream b c bs).Positioned key1 nonceWords1 1 k where
  initd := rfl
  key := rfl
  nonce := rfl
  ctr := by rw [← hb]; rfl
  cur := by rw [if_neg hk]; exact hc
  ks := fun _ j => by
    have e : (64 * ((k - 1) / 64) + j.val) / 64 = b - 1 := by omega
    have m : (64 * ((k - 1) / 64) + j.val) % 64 = j.val := by omega
    rw [midStream_ks, memRead_serialize]
    simp only [keystreamByte, block, e, m, Vector.getElem_ofFn]

/-- For DataByteOutput: offsets 0, 64 and 65. -/
theorem test_witness_DataByteOutput :
    (∃ s : State, s.Positioned key1 nonceWords1 1 0 ∧ s.free ∧ s.phase = .loop ∧ s.upc = 0#7 ∧ s.bn = some 2#32 ∧
      s.bi = some 0#32 ∧ 0#32 < 2#32 ∧ s.rx = [] ∧ s.cmd = 0x4c#8 :: []) ∧
    (∃ s : State, s.Positioned key1 nonceWords1 1 64 ∧ s.free ∧ s.phase = .loop ∧ s.upc = 0#7 ∧ s.bn = some 2#32 ∧
      s.bi = some 1#32 ∧ 1#32 < 2#32 ∧ s.rx = [] ∧ s.cmd = 0x4c#8 :: []) ∧
    (∃ s : State, s.Positioned key1 nonceWords1 1 65 ∧ s.free ∧ s.phase = .loop ∧ s.upc = 0#7 ∧ s.bn = some 2#32 ∧
      s.bi = some 1#32 ∧ 1#32 < 2#32 ∧ s.rx = [] ∧ s.cmd = 0x4c#8 :: []) := by
  refine ⟨⟨{ loaded [0x4c#8] with phase := .loop, bn := some 2#32, bi := some 0#32 }, ?_, ⟨rfl, rfl⟩, rfl, rfl, rfl, rfl,
      by decide, rfl, rfl⟩,
    ⟨{ midStream 1 64 [0x4c#8] with phase := .loop, bn := some 2#32, bi := some 1#32 }, ?_, ⟨rfl, rfl⟩, rfl, rfl, rfl, rfl,
      by decide, rfl, rfl⟩,
    ⟨{ midStream 2 1 [0x4c#8] with phase := .loop, bn := some 2#32, bi := some 1#32 }, ?_, ⟨rfl, rfl⟩, rfl, rfl, rfl, rfl,
      by decide, rfl, rfl⟩⟩
  · have h := test_positioned_start [0x4c#8]
    exact ⟨h.initd, h.key, h.nonce, h.ctr, h.cur, h.ks⟩
  · have h := test_positioned_middle 64 1 64 [0x4c#8] (by decide) (by decide) (by decide)
    exact ⟨h.initd, h.key, h.nonce, h.ctr, h.cur, h.ks⟩
  · have h := test_positioned_middle 65 2 1 [0x4c#8] (by decide) (by decide) (by decide)
    exact ⟨h.initd, h.key, h.nonce, h.ctr, h.cur, h.ks⟩

/-- Two commands, an ENCRYPT of one byte and a DECRYPT of two. -/
def twoCommands : List (Bool × List Byte) := [(false, [0x4c#8]), (true, [0x61#8, 0x64#8])]

theorem test_two_commands_accepted : cxAccepted twoCommands := by unfold cxAccepted; decide +kernel

/-- For CommandSequenceOutput: from offset 0 with bytes after the commands, and from offset 64. -/
theorem test_witness_CommandSequenceOutput :
    (∃ s : State, s.Positioned key1 nonceWords1 1 0 ∧ s.free ∧ s.phase = .ready ∧ s.upc = 0#7 ∧ s.rx = [] ∧
      s.cmd = cxCommands twoCommands ++ [0xff#8] ∧ cxAccepted twoCommands) ∧
    (∃ s : State, s.Positioned key1 nonceWords1 1 64 ∧ s.free ∧ s.phase = .ready ∧ s.upc = 0#7 ∧ s.rx = [] ∧
      s.cmd = cxCommands twoCommands ++ [] ∧ cxAccepted twoCommands) :=
  ⟨⟨loaded (cxCommands twoCommands ++ [0xff#8]), test_positioned_start _, ⟨rfl, rfl⟩, rfl, rfl, rfl, rfl,
      test_two_commands_accepted⟩,
    ⟨midStream 1 64 (cxCommands twoCommands ++ []),
      test_positioned_middle 64 1 64 _ (by decide) (by decide) (by decide), ⟨rfl, rfl⟩, rfl, rfl, rfl, rfl,
      test_two_commands_accepted⟩⟩

/-- For CommandEndsAfterCountedSteps: CUR at 0. -/
theorem test_witness_CommandEndsAfterCountedSteps :
    ∃ s : State, s.Inv ∧ s.free ∧ s.phase = .ready ∧ s.initd = true ∧ s.rx = [] ∧
      s.cmd = cxCommand true [0x4c#8, 0x61#8] ++ [0xff#8] ∧ [0x4c#8, 0x61#8] ≠ [] ∧ [0x4c#8, 0x61#8].length < 2 ^ 32 := by
  refine ⟨loaded (cxCommand true [0x4c#8, 0x61#8] ++ [0xff#8]), ?_, ⟨rfl, rfl⟩, rfl, rfl, rfl, rfl, by decide, by decide⟩
  exact
    { cursor := by decide
      initd := ⟨fun _ => by unfold State.sWritten; exact test_witness_LdwCopiesState, fun _ => rfl⟩
      keystream := fun _ h => absurd rfl h
      context := fun h => absurd rfl h
      xfer := fun h => by cases h
      outside := fun _ => rfl
      inside := by decide
      regenCur := fun h => by cases h
      regenW := fun h => by cases h
      regenKs := fun h => by cases h
      memory := rfl }

/-- For DecryptUndoesEncrypt, the first block, at offset 0 and at offset 64. The second block's hypotheses are met by
any output bytes of as many bytes as went in: here those of one byte, sent as one command. -/
theorem test_witness_DecryptUndoesEncrypt :
    (∃ s : State, s.Positioned key1 nonceWords1 1 64 ∧ s.free ∧ s.phase = .ready ∧ s.upc = 0#7 ∧ s.rx = [] ∧
      s.cmd = cxCommands twoCommands ∧ cxAccepted twoCommands) ∧
    ∀ o : Byte, ∃ (ds : List (Bool × List Byte)) (s : State),
      s.Positioned key1 nonceWords1 1 64 ∧ s.free ∧ s.phase = .ready ∧ s.upc = 0#7 ∧ s.rx = [] ∧
        s.cmd = cxCommands ds ∧ cxAccepted ds ∧ cxData ds = [[o]].flatten := by
  refine ⟨⟨midStream 1 64 (cxCommands twoCommands), test_positioned_middle 64 1 64 _ (by decide) (by decide) (by decide),
    ⟨rfl, rfl⟩, rfl, rfl, rfl, rfl, test_two_commands_accepted⟩, fun o => ⟨[(true, [o])],
    midStream 1 64 (cxCommands [(true, [o])]), test_positioned_middle 64 1 64 _ (by decide) (by decide) (by decide),
    ⟨rfl, rfl⟩, rfl, rfl, rfl, rfl, ?_, rfl⟩⟩
  simp [cxAccepted]

/-- What the host sends to reach stream offset `k` of counter `c0`, and then `cs`, with a byte after it. -/
def seekBytes (c0 : Word) (k : Nat) (cs : List (Bool × List Byte)) : List Byte :=
  encode (.init keyK nonce1 (c0 + BitVec.ofNat 32 (k / 64))) ++
    ((if k % 64 = 0 then [] else cxCommand false (List.replicate (k % 64) 0)) ++ (cxCommands cs ++ [0xff#8]))

/-- For RandomAccessIntoKeystream: offset 100, with a SKIP of 36 (95_test_vectors.md L2.5.6), and offset 64, with none. -/
theorem test_witness_RandomAccessIntoKeystream :
    ∀ k ∈ [100, 64],
      keyK.length = 32 ∧ nonce1.length = 12 ∧
        ((loaded (seekBytes 1 k twoCommands)).resetLine = false ∧ (loaded (seekBytes 1 k twoCommands)).rspReady = true) ∧
        (loaded (seekBytes 1 k twoCommands)).controlFault = none ∧ (loaded (seekBytes 1 k twoCommands)).phase = .ready ∧
        (loaded (seekBytes 1 k twoCommands)).upc = 0#7 ∧ (loaded (seekBytes 1 k twoCommands)).rx = [] ∧
        (loaded (seekBytes 1 k twoCommands)).cmd = seekBytes 1 k twoCommands := by decide +kernel

end OneAtATime

end Sys2Proof.Tests
end

/-! SUPPORT. The numeric values of byte assembly and disassembly (00_scope.md R10), and that the two are inverse. -/

namespace Sys2Proof.Machine

/-! ## Numeric values -/

/-- An or of numbers whose bits do not overlap is their sum. -/
theorem or_mul_two_pow_eq_add {lo k : Nat} (hi : Nat) (h : lo < 2 ^ k) : lo ||| hi * 2 ^ k = lo + 2 ^ k * hi := by
  rw [Nat.or_comm, Nat.mul_comm, ← Nat.two_pow_add_eq_or_of_lt h, Nat.add_comm]

/-- A byte moved up by at most 24 bits loses none of its bits in a word. -/
theorem toNat_zeroExtend_shiftLeft (b : Byte) {k : Nat} (h : k ≤ 24) :
    (b.zeroExtend 32 <<< k).toNat = b.toNat * 2 ^ k := by
  have hb : b.toNat * 2 ^ k < 2 ^ 32 :=
    calc b.toNat * 2 ^ k < 2 ^ 8 * 2 ^ k := Nat.mul_lt_mul_of_pos_right b.isLt (Nat.two_pow_pos k)
      _ = 2 ^ (8 + k) := (Nat.pow_add 2 8 k).symm
      _ ≤ 2 ^ 32 := Nat.pow_le_pow_right (by decide) (by omega)
  rw [BitVec.toNat_shiftLeft, BitVec.toNat_setWidth_of_le (by decide), Nat.shiftLeft_eq, Nat.mod_eq_of_lt hb]

theorem toNat_le32 (b0 b1 b2 b3 : Byte) :
    (le32 b0 b1 b2 b3).toNat = b0.toNat + 2 ^ 8 * b1.toNat + 2 ^ 16 * b2.toNat + 2 ^ 24 * b3.toNat := by
  have h0 := b0.isLt
  have h1 := b1.isLt
  have h2 := b2.isLt
  rw [le32, BitVec.toNat_or, BitVec.toNat_or, BitVec.toNat_or, BitVec.toNat_setWidth_of_le (by decide),
    toNat_zeroExtend_shiftLeft b1 (by decide), toNat_zeroExtend_shiftLeft b2 (by decide),
    toNat_zeroExtend_shiftLeft b3 (by decide), or_mul_two_pow_eq_add b1.toNat h0,
    or_mul_two_pow_eq_add b2.toNat (by omega), or_mul_two_pow_eq_add b3.toNat (by omega)]

theorem toNat_byteOf (m : Nat) (w : Word) : (byteOf m w).toNat = w.toNat / 2 ^ (8 * m) % 2 ^ 8 := by
  rw [byteOf, BitVec.extractLsb'_toNat, Nat.shiftRight_eq_div_pow]

/-! ## The two are inverse -/

@[simp] theorem le32_byteOf (w : Word) : le32 (byteOf 0 w) (byteOf 1 w) (byteOf 2 w) (byteOf 3 w) = w := by
  apply BitVec.eq_of_toNat_eq
  rw [toNat_le32]
  simp only [toNat_byteOf]
  omega

/-- Byte `m` of a word is the base-256 digit `m` of its value, and `le32` sums its bytes with those weights. -/
@[simp] theorem bytesOf_le32 (b0 b1 b2 b3 : Byte) : bytesOf (le32 b0 b1 b2 b3) = [b0, b1, b2, b3] := by
  have digit (m : Nat) (b : Byte) (h : (le32 b0 b1 b2 b3).toNat / 2 ^ (8 * m) % 2 ^ 8 = b.toNat) :
      byteOf m (le32 b0 b1 b2 b3) = b :=
    BitVec.eq_of_toNat_eq ((toNat_byteOf m _).trans h)
  rw [bytesOf, digit 0 b0, digit 1 b1, digit 2 b2, digit 3 b3] <;> rw [toNat_le32] <;> omega

/-! ## The obligation of 00_scope.md -/

/-- Settles O13, from the numeric values of `le32` and `byteOf`. -/
theorem bytesAndWordsAreInverse : Obligations.BytesAndWordsAreInverse := by
  unfold Obligations.BytesAndWordsAreInverse
  refine ⟨le32_byteOf, fun b0 b1 b2 b3 => ⟨toNat_le32 b0 b1 b2 b3, ?_⟩⟩
  simpa [bytesOf] using bytesOf_le32 b0 b1 b2 b3

end Sys2Proof.Machine

/-! SUPPORT. Everything a step without reset can do, as one predicate of the state before and the state after, and the
obligations of 10_state.md that follow from it by cases. -/

namespace Sys2Proof.Machine

/-! ## Outcomes that touch the streams only -/

/-- The two states differ at most in the streams and the bytes taken from them: a wait, or a rejection
(60_exceptions.md R206). -/
def State.sameButStreams (s t : State) : Prop := ∃ c r p, t = { s with cmd := c, rx := r, rsp := p }

theorem State.sameButStreams.refl (s : State) : s.sameButStreams s := ⟨s.cmd, s.rx, s.rsp, rfl⟩

theorem State.sameButStreams.trans {s t u : State} (h : s.sameButStreams t) (h' : t.sameButStreams u) :
    s.sameButStreams u := by
  obtain ⟨_, _, _, rfl⟩ := h
  obtain ⟨c, r, p, rfl⟩ := h'
  exact ⟨c, r, p, rfl⟩

theorem sameButStreams_taken (r c : List Byte) (s : State) : s.sameButStreams (s.taken r c) := ⟨c, r, s.rsp, rfl⟩

theorem sameButStreams_take (len : Nat) (s : State) : s.sameButStreams (s.take len) := sameButStreams_taken _ _ s

theorem sameButStreams_consumed_send (v : Byte) (s : State) : s.sameButStreams (s.consumed.send v) :=
  ⟨s.cmd, [], s.rsp ++ [v], rfl⟩

theorem sameButStreams_send (v : Byte) (s : State) : s.sameButStreams (s.send v) := ⟨s.cmd, s.rx, s.rsp ++ [v], rfl⟩

theorem raise_sameButStreams {e : ErrorKind} {s t : State} (h : raise e s = .next t) : s.sameButStreams t := by
  rw [raise_eq, Host.Outcome.next.injEq] at h
  subst h
  split_ifs
  · exact sameButStreams_consumed_send _ s
  · exact .refl s

theorem discardThenRaise_sameButStreams {n : Nat} {e : ErrorKind} {s t : State}
    (h : discardThenRaise n e s = .next t) : s.sameButStreams t := by
  unfold discardThenRaise at h
  split_ifs at h
  · exact Host.Outcome.next.inj h ▸ sameButStreams_taken _ _ s
  · exact (sameButStreams_taken _ _ s).trans (raise_sameButStreams h)

/-! ## What the commands and XORB can leave -/

/-- INIT leaves the state but for the streams, or it has accepted its lengths and loaded the cipher state. -/
theorem execInit_next {key nonce : List Byte} {ctr : Word} {s t : State} (h : execInit key nonce ctr s = .next t) :
    s.sameButStreams t ∨
      (key.length = 32 ∧ nonce.length = 12 ∧ t = (s.loadCipher key nonce ctr).consumed.send statusOk) := by
  rw [execInit_eq] at h
  split_ifs at h with hlen hready
  · exact .inr ⟨hlen.1, hlen.2, (Host.Outcome.next.inj h).symm⟩
  · exact .inl (Host.Outcome.next.inj h ▸ .refl s)
  · exact .inl (raise_sameButStreams h)

/-- ENCRYPT and DECRYPT leave the state but for the streams, or they are accepted. -/
theorem streamCommand_next {opcode : Byte} {n : Word} {s t : State} (h : streamCommand opcode n s = .next t) :
    s.sameButStreams t ∨
      (s.initd = true ∧ n ≠ 0 ∧ t = (s.accept opcode n).consumed.send statusOk) := by
  rw [streamCommand_eq] at h
  split_ifs at h with hinit hn hready
  · exact .inl (discardThenRaise_sameButStreams h)
  · exact .inl (raise_sameButStreams h)
  · exact .inr ⟨by simpa using hinit, hn, (Host.Outcome.next.inj h).symm⟩
  · exact .inl (Host.Outcome.next.inj h ▸ .refl s)

/-- XORB leaves the state but for the streams where it waits; else it has processed the byte at the head of the stream. -/
theorem execXorb_next_cases {s t : State} (h : execXorb s = .next t) :
    s.sameButStreams t ∨
      ∃ n i d rest k, s.bn = some n ∧ s.bi = some i ∧ i < n ∧ s.cur ≤ 63#7 ∧ s.stream = d :: rest ∧
        memRead s.ks s.cur.toNat = some k ∧ t = (s.xorbDone n i rest).send (d ^^^ k) := by
  obtain ⟨n, i, hctx, hcur, ⟨-, rfl⟩ | ⟨d, rest, k, hs, hk, h⟩⟩ := execXorb_next s t h
  · exact .inl (.refl _)
  · rw [respond_eq, Host.Outcome.next.injEq] at h
    subst h
    split_ifs
    · obtain ⟨hn, hi, hlt⟩ := (context_ok s n i).mp hctx
      exact .inr ⟨n, i, d, rest, k, hn, hi, hlt, hcur, hs, hk, rfl⟩
    · exact .inl (sameButStreams_taken _ _ s)

/-! ## What the command decoder answers (30_encoding.md R77) -/

theorem decodeInit_complete {bs : List Byte} {i : Instr} {len : Nat} (h : decodeInit bs = .complete i len) :
    ∃ key nonce ctr, i = .init key nonce ctr := by
  unfold decodeInit at h
  split at h
  · simp only at h
    split at h
    · exact ⟨_, _, _, (CommandRead.complete.inj h).1.symm⟩
    · cases h
  · cases h

theorem decodeCx_complete {mk : Word → Instr} {bs : List Byte} {i : Instr} {len : Nat}
    (h : decodeCx mk bs = .complete i len) : ∃ n, i = mk n := by
  unfold decodeCx at h
  split at h
  · exact ⟨_, (CommandRead.complete.inj h).1.symm⟩
  · cases h

/-- The command decoder answers INIT, ENCRYPT and DECRYPT only. -/
theorem decodeCommand_complete_cases {bs : List Byte} {i : Instr} {len : Nat}
    (h : decodeCommand bs = .complete i len) :
    (∃ key nonce ctr, i = .init key nonce ctr) ∨ (∃ n, i = .encrypt n) ∨ ∃ n, i = .decrypt n := by
  unfold decodeCommand at h
  split at h
  · cases h
  · split_ifs at h
    · exact .inl (decodeInit_complete h)
    · exact .inr (.inl (decodeCx_complete h))
    · exact .inr (.inr (decodeCx_complete h))

/-! ## The micro-op at each place of the ROM (30_encoding.md R82) -/

theorem length_romRounds (n : Nat) : (romRounds n).length = 8 * n := by
  induction n with
  | zero => rfl
  | succ n ih =>
    rw [romRounds, List.length_append, ih, show romDoubleRound.length = 8 from rfl]
    omega

theorem mem_romDoubleRound_of_mem_romRounds {code : Byte} {n : Nat} (h : code ∈ romRounds n) :
    code ∈ romDoubleRound := by
  induction n with
  | zero => cases h
  | succ n ih => exact (List.mem_append.mp h).elim id ih

/-- The codes at UPC 1..80 are those of the double round. -/
theorem rom_mix {u : Nat} {code : Byte} (h1 : 1 ≤ u) (h80 : u ≤ 80) (h : rom[u]? = some code) :
    code ∈ romDoubleRound := by
  obtain ⟨v, rfl⟩ : ∃ v, u = v + 1 := ⟨u - 1, by omega⟩
  have hv : v < (romRounds Config.doubleRounds).length := by
    rw [length_romRounds, Config.doubleRounds]
    omega
  rw [rom, List.append_assoc, List.singleton_append, List.getElem?_cons_succ, List.getElem?_append_left hv] at h
  exact mem_romDoubleRound_of_mem_romRounds (List.mem_of_getElem? h)

/-- The eight QR micro-ops. -/
def qrOps : List Instr := [.qrC0, .qrC1, .qrC2, .qrC3, .qrD0, .qrD1, .qrD2, .qrD3]

theorem decode_romDoubleRound : romDoubleRound.map decodeMicro = qrOps.map .op := by decide

/-- A QR micro-op is QR on some group of four words (41_quarter_round.md R124). -/
theorem exec_qrOps {i : Instr} (h : i ∈ qrOps) : ∃ a b c d, ∀ s, exec i s = qrMicro a b c d s := by
  simp only [qrOps, List.mem_cons, List.not_mem_nil, or_false] at h
  obtain rfl | rfl | rfl | rfl | rfl | rfl | rfl | rfl := h <;> exact ⟨_, _, _, _, fun _ => rfl⟩

/-- The micro-op at UPC `u`: LDW, the eighty QR micro-ops, FFADD, SER, CTRINC, CURCLR. -/
theorem rom_cases {u : Nat} {code : Byte} {i : Instr} (hc : rom[u]? = some code) (hd : decodeMicro code = .op i) :
    (u = 0 ∧ i = .ldw) ∨ (1 ≤ u ∧ u ≤ 80 ∧ i ∈ qrOps) ∨ (u = 81 ∧ i = .ffadd) ∨ (u = 82 ∧ i = .ser) ∨
      (u = 83 ∧ i = .ctrinc) ∨ (u = 84 ∧ i = .curclr) := by
  have atPlace {v : Nat} {j : Instr} (h : rom[v]?.map decodeMicro = some (.op j)) (hv : u = v) : u = v ∧ i = j := by
    subst hv
    rw [hc, Option.map_some, hd] at h
    exact ⟨rfl, MicroRead.op.inj (Option.some.inj h)⟩
  have hu : u < 85 := (List.getElem?_eq_some_iff.mp hc).1
  by_cases hmix : 1 ≤ u ∧ u ≤ 80
  · have hmem := List.mem_map_of_mem (f := decodeMicro) (rom_mix hmix.1 hmix.2 hc)
    rw [decode_romDoubleRound, hd] at hmem
    obtain ⟨j, hj, hji⟩ := List.mem_map.mp hmem
    exact .inr (.inl ⟨hmix.1, hmix.2, MicroRead.op.inj hji ▸ hj⟩)
  · obtain h | h | h | h | h : u = 0 ∨ u = 81 ∨ u = 82 ∨ u = 83 ∨ u = 84 := by omega
    · exact .inl (atPlace (by decide) h)
    · exact .inr (.inr (.inl (atPlace (by decide) h)))
    · exact .inr (.inr (.inr (.inl (atPlace (by decide) h))))
    · exact .inr (.inr (.inr (.inr (.inl (atPlace (by decide) h)))))
    · exact .inr (.inr (.inr (.inr (.inr (atPlace (by decide) h)))))

/-! ## W after a micro-op -/

theorem wWritten_setFour {s : State} (h : s.wWritten) (a b c d : Fin 16) (r : Word × Word × Word × Word) :
    (s.writeW (setFour s.w a b c d r)).wWritten := by
  intro j
  rw [State.writeW_w, setFour_getElem]
  have := h j
  split_ifs <;> simp_all

theorem wWritten_writeW_written (s : State) (x : Vector Word 16) : (s.writeW (written x)).wWritten :=
  wWritten_of_written (State.writeW_w _ _)

/-! ## Everything a step without reset can do -/

/-- XORB is the next instruction: in LOOP where the test of 43_stream_updater.md R172 does not fire, and in XFER. -/
def State.issuesXorb (s : State) : Prop := (s.phase = .loop ∧ ¬ (s.cur = 0#7 ∨ s.cur = 64#7)) ∨ s.phase = .xfer

/-- What one step other than the reset event does, from `s` to `t`. -/
inductive StepEffect (s t : State) : Prop
  /-- A wait, or a rejected command. -/
  | stays (position : s.phase = .ready ∨ s.issuesXorb) (same : s.sameButStreams t)
  /-- An accepted INIT. -/
  | init (key nonce : List Byte) (ctr : Word) (len : Nat) (ready : s.phase = .ready)
      (decoded : decodeCommand s.stream = .complete (.init key nonce ctr) len)
      (keyLength : key.length = 32) (nonceLength : nonce.length = 12)
      (next : t = ((s.take len).loadCipher key nonce ctr).consumed.send statusOk)
  /-- An accepted ENCRYPT or DECRYPT. -/
  | accept (opcode : Byte) (n : Word) (len : Nat) (ready : s.phase = .ready)
      (decoded : decodeCommand s.stream = .complete (.encrypt n) len ∨
        decodeCommand s.stream = .complete (.decrypt n) len)
      (initd : s.initd = true) (nonzero : n ≠ 0) (next : t = ((s.take len).accept opcode n).consumed.send statusOk)
  /-- The LOOP test fires. -/
  | regenStart (loop : s.phase = .loop) (fires : s.cur = 0#7 ∨ s.cur = 64#7) (next : t = s.regenStart)
  /-- LDW, a QR micro-op or FFADD, which leave W written where LDW has written it before. -/
  | mix (f : Vector (Option Word) 16) (regen : s.phase = .regen) (upc : s.upc ≤ 81#7)
      (keeps : (s.upc ≠ 0#7 → s.wWritten) → (s.writeW f).wWritten) (next : t = (s.writeW f).upcNext)
  /-- SER. -/
  | ser (x : Vector Word 16) (regen : s.phase = .regen) (upc : s.upc = 82#7)
      (next : t = (s.writeKs (serialize s.ks x)).upcNext)
  /-- CTRINC. -/
  | ctrinc (c : Word) (regen : s.phase = .regen) (upc : s.upc = 83#7) (counter : s.ctr = some c)
      (next : t = (s.writeCtr (add32 c 1)).upcNext)
  /-- CURCLR, which ends the regeneration. -/
  | curclr (regen : s.phase = .regen) (upc : s.upc = 84#7) (next : t = s.clearCur.regenEnd)
  /-- XORB on the data byte `d`. -/
  | xorb (n i : Word) (d k : Byte) (rest : List Byte) (issued : s.issuesXorb) (bn : s.bn = some n)
      (bi : s.bi = some i) (below : i < n) (cur : s.cur ≤ 63#7) (data : s.stream = d :: rest)
      (byte : memRead s.ks s.cur.toNat = some k) (next : t = (s.xorbDone n i rest).send (d ^^^ k))

/-- XORB where it is the next instruction. -/
theorem stepEffect_of_xorb {s t : State} (hat : s.issuesXorb) (h : exec .xorb s = .next t) : StepEffect s t := by
  obtain hsame | ⟨n, i, d, rest, k, hn, hi, hlt, hcur, hs, hk, ht⟩ := execXorb_next_cases h
  · exact .stays (.inr hat) hsame
  · exact .xorb n i d k rest hat hn hi hlt hcur hs hk ht

/-- A decoded command in READY. -/
theorem stepEffect_of_command {s t : State} {i : Instr} {len : Nat} (hp : s.phase = .ready)
    (hd : decodeCommand s.stream = .complete i len) (h : exec i (s.take len) = .next t) : StepEffect s t := by
  have stays (hsame : (s.take len).sameButStreams t) : StepEffect s t :=
    .stays (.inl hp) ((sameButStreams_take len s).trans hsame)
  obtain ⟨key, nonce, ctr, rfl⟩ | ⟨n, rfl⟩ | ⟨n, rfl⟩ := decodeCommand_complete_cases hd
  · obtain hsame | ⟨hk, hn, ht⟩ := execInit_next h
    · exact stays hsame
    · exact .init key nonce ctr len hp hd hk hn ht
  · obtain hsame | ⟨hi, hn, ht⟩ := streamCommand_next h
    · exact stays hsame
    · exact .accept _ n len hp (.inl hd) hi hn ht
  · obtain hsame | ⟨hi, hn, ht⟩ := streamCommand_next h
    · exact stays hsame
    · exact .accept _ n len hp (.inr hd) hi hn ht

/-- The micro-op at UPC in REGEN. -/
theorem stepEffect_of_micro {s t : State} {code : Byte} {i : Instr} (hp : s.phase = .regen)
    (hc : rom[s.upc.toNat]? = some code) (hd : decodeMicro code = .op i) (h : exec i s = .next t) :
    StepEffect s t := by
  obtain ⟨hu, rfl⟩ | ⟨h1, h80, hi⟩ | ⟨hu, rfl⟩ | ⟨hu, rfl⟩ | ⟨hu, rfl⟩ | ⟨hu, rfl⟩ := rom_cases hc hd
  · obtain ⟨x, -, ht⟩ := execLdw_next s t h
    exact .mix _ hp (by bv_omega) (fun _ => wWritten_writeW_written s x) ht
  · obtain ⟨a, b, c, d, he⟩ := exec_qrOps hi
    rw [he] at h
    obtain ⟨_, _, _, _, -, -, -, -, ht⟩ := qrMicro_next a b c d s t h
    have hu0 : s.upc ≠ 0#7 := by bv_omega
    exact .mix _ hp (by bv_omega) (fun hw => wWritten_setFour (hw hu0) a b c d _) ht
  · obtain ⟨x, y, -, -, ht⟩ := execFfadd_next s t h
    exact .mix _ hp (by bv_omega) (fun _ => wWritten_writeW_written s _) ht
  · obtain ⟨x, -, ht⟩ := execSer_next s t h
    exact .ser x hp (by bv_omega) ht
  · obtain ⟨c, hctr, ht⟩ := execCtrinc_next s t h
    exact .ctrinc c hp (by bv_omega) hctr ht
  · exact .curclr hp (by bv_omega) (Host.Outcome.next.inj h).symm

/-- Reset takes precedence over everything (60_exceptions.md R205). -/
theorem step_of_reset {s : State} (hr : s.resetLine = true) : step s = .next s.resetEvent := by
  simp only [step, nextAction, hr, if_true]

/-- Every step that is not the reset event is one of these. -/
theorem stepEffect_of_step {s t : State} (hr : s.resetLine = false) (h : step s = .next t) : StepEffect s t := by
  obtain ⟨hr', -⟩ | ⟨-, -, h⟩ := step_next_cases s t h
  · simp [hr] at hr'
  obtain ⟨hp, -, rfl⟩ | ⟨hp, -, h⟩ | ⟨hp, i, len, hd, h⟩ | ⟨hp, hc, rfl⟩ | ⟨hp, hc, h⟩ | ⟨hp, code, i, hc, hd, h⟩ |
    ⟨hp, h⟩ := h
  · exact .stays (.inl hp) (sameButStreams_take _ s)
  · exact .stays (.inl hp) ((sameButStreams_take 1 s).trans (raise_sameButStreams h))
  · exact stepEffect_of_command hp hd h
  · exact .regenStart hp hc rfl
  · exact stepEffect_of_xorb (.inl ⟨hp, hc⟩) h
  · exact stepEffect_of_micro hp hc hd h
  · exact stepEffect_of_xorb (.inr hp) h

/-! ## What keeps the invariant of 10_state.md R39 -/

theorem State.Inv.of_sameButStreams {s t : State} (hi : s.Inv) (h : s.sameButStreams t) : t.Inv := by
  obtain ⟨_, _, _, rfl⟩ := h
  exact hi.of_same rfl rfl rfl rfl rfl rfl rfl rfl rfl rfl rfl

theorem reset_inv : State.reset.Inv where
  cursor := by decide
  initd := by
    refine iff_of_false (by decide) fun hs => ?_
    have key0 : State.reset.readS 4 = none := by decide
    simpa [key0] using hs 4
  keystream h := by cases h
  context h := absurd rfl h
  xfer h := by cases h
  outside _ := rfl
  inside := by decide
  regenCur h := by cases h
  regenW h := by cases h
  regenKs h := by cases h
  memory := reset_memory_wf

theorem resetEvent_inv (s : State) : s.resetEvent.Inv :=
  reset_inv.of_same rfl rfl rfl rfl rfl rfl rfl rfl rfl rfl rfl

theorem sWritten_loadCipher (key nonce : List Byte) (ctr : Word) (s : State) :
    (s.loadCipher key nonce ctr).sWritten :=
  sWritten_of_parts (by simp) (by simp) (by simp)

theorem sWritten_writeCtr {s : State} (h : s.sWritten) (c : Word) : (s.writeCtr c).sWritten := by
  intro i
  have := h i
  unfold State.readS State.sFile at *
  fin_cases i <;> simp_all

theorem ksWritten_serialize (s : State) (x : Vector Word 16) : (s.writeKs (serialize s.ks x)).ksWritten := by
  intro j
  rw [State.writeKs_ks, memRead_serialize]
  rfl

/-- An accepted INIT. -/
theorem State.Inv.loadCipher {s : State} (hi : s.Inv) (hp : s.phase = .ready) (key nonce : List Byte) (ctr : Word) :
    (s.loadCipher key nonce ctr).Inv where
  cursor := by simp
  initd := iff_of_true rfl (sWritten_loadCipher key nonce ctr s)
  keystream _ h := absurd rfl h
  context h := absurd hp h
  xfer h := by simp [hp] at h
  outside _ := hi.outside (by simp [hp])
  inside := hi.inside
  regenCur h := by simp [hp] at h
  regenW h := by simp [hp] at h
  regenKs h := by simp [hp] at h
  memory := hi.memory

/-- An accepted ENCRYPT or DECRYPT. -/
theorem State.Inv.accept {s : State} (hi : s.Inv) (hp : s.phase = .ready) (hinit : s.initd = true) (opcode : Byte)
    {n : Word} (hn : n ≠ 0) : (s.accept opcode n).Inv where
  cursor := hi.cursor
  initd := hi.initd
  keystream := hi.keystream
  context _ := ⟨hinit, n, 0, rfl, rfl, by bv_omega⟩
  xfer h := by cases h
  outside _ := hi.outside (by simp [hp])
  inside := hi.inside
  regenCur h := by cases h
  regenW h := by cases h
  regenKs h := by cases h
  memory := hi.memory

/-- The LOOP test fires. -/
theorem State.Inv.regenStart {s : State} (hi : s.Inv) (hp : s.phase = .loop) (hc : s.cur = 0#7 ∨ s.cur = 64#7) :
    s.regenStart.Inv where
  cursor := hi.cursor
  initd := hi.initd
  keystream := hi.keystream
  context _ := hi.context (by simp [hp])
  xfer h := by cases h
  outside _ := rfl
  inside := by simp
  regenCur _ := hc
  regenW _ h := absurd rfl h
  regenKs _ h := by simp at h
  memory := hi.memory

/-- A micro-op other than the last: it may write W, KS and S[12], leaves what is written written, and UPC advances. -/
theorem State.Inv.microOp {s : State} (hi : s.Inv) (hp : s.phase = .regen) (hu : s.upc < 84#7)
    {f : Vector (Option Word) 16} {m : Memory} {c : Option Word} (hS : State.sWritten { s with ctr := c })
    (hW : State.wWritten { s with w := f }) (hK : s.ksWritten → State.ksWritten { s with ks := m })
    (hSer : s.upc = 82#7 → State.ksWritten { s with ks := m })
    (hm : Memory.wf m = true) : State.Inv { s with w := f, ks := m, ctr := c, upc := s.upc + 1 } where
  cursor := hi.cursor
  initd := iff_of_true (hi.context (by simp [hp])).1 hS
  keystream h1 h2 := hK (hi.keystream h1 h2)
  context _ := hi.context (by simp [hp])
  xfer h := by simp [hp] at h
  outside h := absurd hp h
  inside := by simp only; bv_omega
  regenCur := hi.regenCur
  regenW _ _ := hW
  regenKs _ h := by
    simp only at h
    by_cases h82 : s.upc = 82#7
    · exact hSer h82
    · exact hK (hi.regenKs hp (by bv_omega))
  memory := hm

/-- CURCLR at the end of the regeneration. -/
theorem State.Inv.regenEnd {s : State} (hi : s.Inv) (hp : s.phase = .regen) (hu : s.upc = 84#7) :
    s.clearCur.regenEnd.Inv where
  cursor := by simp
  initd := hi.initd
  keystream _ h := absurd rfl h
  context _ := hi.context (by simp [hp])
  xfer _ := ⟨rfl, hi.regenKs hp (by rw [hu]; decide)⟩
  outside _ := rfl
  inside := by simp
  regenCur h := by cases h
  regenW h := by cases h
  regenKs h := by cases h
  memory := hi.memory

/-- Where XORB is issued, KS holds the current block. -/
theorem State.Inv.ksWritten_of_issuesXorb {s : State} (hi : s.Inv) (h : s.issuesXorb) : s.ksWritten := by
  obtain ⟨hp, hc⟩ | hp := h
  · exact hi.keystream (hi.context (by simp [hp])).1 (fun h0 => hc (.inl h0))
  · exact (hi.xfer hp).2

theorem State.issuesXorb.phase {s : State} (h : s.issuesXorb) : s.phase = .loop ∨ s.phase = .xfer :=
  h.imp And.left id

theorem xorbDone_phase_ne_xfer (n i : Word) (rest : List Byte) (s : State) :
    (s.xorbDone n i rest).phase ≠ .xfer := by
  rw [State.xorbDone_phase]
  split_ifs <;> simp

theorem xorbDone_phase_ne_regen (n i : Word) (rest : List Byte) (s : State) :
    (s.xorbDone n i rest).phase ≠ .regen := by
  rw [State.xorbDone_phase]
  split_ifs <;> simp

/-- XORB on one data byte. -/
theorem State.Inv.xorbDone {s : State} (hi : s.Inv) (h : s.issuesXorb) {n i : Word} (hn : s.bn = some n) (hlt : i < n)
    (hc : s.cur ≤ 63#7) (rest : List Byte) : (s.xorbDone n i rest).Inv where
  cursor := by simp only [State.xorbDone_cur]; bv_omega
  initd := hi.initd
  keystream _ _ := hi.ksWritten_of_issuesXorb h
  context hp := by
    have hne : i + 1 ≠ n := fun e => hp (if_pos e)
    exact ⟨(hi.context (by rcases h.phase with h | h <;> simp [h])).1, n, i + 1, hn, rfl, by bv_omega⟩
  xfer hp := absurd hp (xorbDone_phase_ne_xfer n i rest s)
  outside _ := hi.outside (by rcases h.phase with h | h <;> simp [h])
  inside := hi.inside
  regenCur hp := absurd hp (xorbDone_phase_ne_regen n i rest s)
  regenW hp := absurd hp (xorbDone_phase_ne_regen n i rest s)
  regenKs hp := absurd hp (xorbDone_phase_ne_regen n i rest s)
  memory := hi.memory

theorem StepEffect.keeps_inv {s t : State} (h : StepEffect s t) (hi : s.Inv) : t.Inv := by
  have running (hp : s.phase = .regen) : s.sWritten := hi.initd.mp (hi.context (by simp [hp])).1
  cases h with
  | stays _ same => exact hi.of_sameButStreams same
  | init key nonce ctr len ready _ _ _ next =>
    subst next
    exact ((hi.of_sameButStreams (sameButStreams_take len s)).loadCipher ready key nonce ctr).of_sameButStreams
      (sameButStreams_consumed_send _ _)
  | accept opcode n len ready _ initd nonzero next =>
    subst next
    exact ((hi.of_sameButStreams (sameButStreams_take len s)).accept ready initd opcode nonzero).of_sameButStreams
      (sameButStreams_consumed_send _ _)
  | regenStart loop fires next => exact next ▸ hi.regenStart loop fires
  | mix f regen upc keeps next =>
    subst next
    exact hi.microOp regen (by bv_omega) (running regen) (keeps (hi.regenW regen)) id
      (fun h82 => absurd h82 (by bv_omega)) hi.memory
  | ser x regen upc next =>
    subst next
    exact hi.microOp regen (by bv_omega) (running regen) (hi.regenW regen (by bv_omega))
      (fun _ => ksWritten_serialize s x)
      (fun _ => ksWritten_serialize s x) (serialize_wf _ _ hi.memory)
  | ctrinc c regen upc counter next =>
    subst next
    exact hi.microOp regen (by bv_omega) (sWritten_writeCtr (running regen) _) (hi.regenW regen (by bv_omega))
      id
      (fun h82 => absurd h82 (by bv_omega)) hi.memory
  | curclr regen upc next => exact next ▸ hi.regenEnd regen upc
  | xorb n i d k rest issued bn bi below cur data byte next =>
    subst next
    exact (hi.xorbDone issued bn below cur rest).of_sameButStreams
      (sameButStreams_send _ _)

/-! ## Unwritten reads (10_state.md R38) -/

theorem allS_eq_none {s : State} (h : ¬ s.sWritten) : s.allS = none := by
  rwa [← allS_isSome, Bool.not_eq_true, Option.isSome_eq_false_iff, Option.isNone_iff_eq_none] at h

theorem allW_eq_none {s : State} (h : ¬ s.wWritten) : s.allW = none := by
  rwa [← allW_isSome, Bool.not_eq_true, Option.isSome_eq_false_iff, Option.isNone_iff_eq_none] at h

theorem execLdw_unwritten {s : State} (h : ¬ s.sWritten) : execLdw s = .fault (.unwrittenRead .s) := by
  unfold execLdw
  rw [allS_eq_none h]

theorem execFfadd_unwritten_w {s : State} (h : ¬ s.wWritten) : execFfadd s = .fault (.unwrittenRead .w) := by
  unfold execFfadd
  rw [allW_eq_none h]

theorem execFfadd_unwritten_s {s : State} (hw : s.wWritten) (hs : ¬ s.sWritten) :
    execFfadd s = .fault (.unwrittenRead .s) := by
  obtain ⟨x, hx⟩ := Option.isSome_iff_exists.mp ((allW_isSome s).mpr hw)
  unfold execFfadd
  rw [hx, allS_eq_none hs]

theorem execSer_unwritten {s : State} (h : ¬ s.wWritten) : execSer s = .fault (.unwrittenRead .w) := by
  unfold execSer
  rw [allW_eq_none h]

theorem execCtrinc_unwritten {s : State} (h : s.ctr = none) : execCtrinc s = .fault (.unwrittenRead .s) := by
  simp only [execCtrinc, h]

theorem qrMicro_unwritten (a b c d : Fin 16) {s : State}
    (h : s.w[a] = none ∨ s.w[b] = none ∨ s.w[c] = none ∨ s.w[d] = none) :
    qrMicro a b c d s = .fault (.unwrittenRead .w) := by
  unfold qrMicro
  split
  · simp_all
  · rfl

theorem execXorb_unwritten_ks {s : State} {n i : Word} {d : Byte} {rest : List Byte} (hctx : s.context = .ok (n, i))
    (hcur : s.cur ≤ 63#7) (hs : s.stream = d :: rest) (hk : memRead s.ks s.cur.toNat = none) :
    execXorb s = .fault (.unwrittenRead .ks) := by
  simp only [execXorb, hctx, BitVec.not_lt.mpr hcur, hs, hk, if_false]

theorem context_unwritten {s : State} (h : s.bn = none ∨ s.bi = none) :
    s.context = .error (.unwrittenRead .context) := by
  unfold State.context
  split
  · simp_all
  · rfl

theorem execXorb_unwritten_context {s : State} (h : s.bn = none ∨ s.bi = none) :
    execXorb s = .fault (.unwrittenRead .context) := by
  simp only [execXorb, context_unwritten h]

/-! ## The transitions of PHASE -/

theorem xorbDone_transition {s : State} {n i : Word} (hn : s.bn = some n) (hi : s.bi = some i) (v : Byte)
    (rest : List Byte) :
    ((s.xorbDone n i rest).send v).bi ≠ s.bi ∧
      ((s.xorbDone n i rest).send v).phase =
        if ((s.xorbDone n i rest).send v).bi = ((s.xorbDone n i rest).send v).bn then .ready else .loop := by
  simp [hn, hi]

/-! ## The obligations of 10_state.md -/

/-- Settles O50: the reset event gives the reset state, and every other effect of a step keeps the invariant. -/
theorem stepKeepsInvariant : Obligations.StepKeepsInvariant := by
  unfold Obligations.StepKeepsInvariant
  intro s t hi h
  cases hr : s.resetLine with
  | false => exact (stepEffect_of_step hr h).keeps_inv hi
  | true =>
    rw [step_of_reset hr, Host.Outcome.next.injEq] at h
    exact h ▸ resetEvent_inv s

/-- Settles O3, by cases of the effect of the step. -/
theorem onlyInitAndCtrincWriteS : Obligations.OnlyInitAndCtrincWriteS := by
  unfold Obligations.OnlyInitAndCtrincWriteS
  intro s t hr h
  cases stepEffect_of_step hr h with
  | init key nonce ctr len ready decoded =>
    exact ⟨fun _ => ⟨ready, key, nonce, ctr, len, decoded⟩, fun _ => .inl ⟨ready, key, nonce, ctr, len, decoded⟩⟩
  | ctrinc c regen upc _ next =>
    subst next
    exact ⟨by simp, fun _ => .inr ⟨regen, by rw [upc]; decide⟩⟩
  | stays _ same =>
    obtain ⟨_, _, _, rfl⟩ := same
    simp
  -- Every other effect leaves S as it was.
  | _ => simp [*]

/-- Settles O4, by cases of the effect of the step. -/
theorem initdSetByInitClearedByReset : Obligations.InitdSetByInitClearedByReset := by
  unfold Obligations.InitdSetByInitClearedByReset
  intro s t h
  cases hr : s.resetLine with
  | true =>
    rw [step_of_reset hr, Host.Outcome.next.injEq] at h
    simp [← h]
  | false =>
    cases stepEffect_of_step hr h with
    | init key nonce ctr len ready decoded keyLength nonceLength next =>
      subst next
      have loaded := (sWritten_congr rfl rfl rfl).mpr (sWritten_loadCipher key nonce ctr (s.take len))
      exact ⟨by simp, by simp, fun _ _ =>
        ⟨ready, key, nonce, ctr, len, decoded, keyLength, nonceLength, by simp [statusOk], loaded⟩⟩
    | stays _ same =>
      obtain ⟨_, _, _, rfl⟩ := same
      simp_all
    -- Every other effect leaves INITD as it was.
    | _ => simp_all

/-- Settles O5, by cases of the effect of the step. -/
theorem onlySerWritesKs : Obligations.OnlySerWritesKs := by
  unfold Obligations.OnlySerWritesKs
  intro s t hr h hks
  cases stepEffect_of_step hr h with
  | ser x regen upc => exact ⟨regen, by rw [upc]; decide⟩
  | stays _ same =>
    obtain ⟨_, _, _, rfl⟩ := same
    exact absurd rfl hks
  -- Every other effect leaves KS as it was.
  | _ => simp_all

/-- Settles O26, from the fault of each meaning. -/
theorem unwrittenReadsFault : Obligations.UnwrittenReadsFault := by
  unfold Obligations.UnwrittenReadsFault
  exact ⟨fun _ => execLdw_unwritten, fun _ => execFfadd_unwritten_w, fun _ => execFfadd_unwritten_s,
    fun _ => execSer_unwritten, fun _ => execCtrinc_unwritten, fun _ => qrMicro_unwritten 0 4 8 12,
    fun _ => qrMicro_unwritten 1 5 9 13, fun _ => qrMicro_unwritten 2 6 10 14, fun _ => qrMicro_unwritten 3 7 11 15,
    fun _ => qrMicro_unwritten 0 5 10 15, fun _ => qrMicro_unwritten 1 6 11 12, fun _ => qrMicro_unwritten 2 7 8 13,
    fun _ => qrMicro_unwritten 3 4 9 14,
    fun s n i _ _ hn hi hlt => execXorb_unwritten_ks ((context_ok s n i).mpr ⟨hn, hi, hlt⟩),
    fun _ => execXorb_unwritten_context⟩

/-- Settles O43, by cases of the effect of the step. -/
theorem phaseTransitions : Obligations.PhaseTransitions := by
  unfold Obligations.PhaseTransitions
  refine ⟨⟨rfl, rfl, rfl, rfl, rfl⟩, fun s t hr h => ?_⟩
  cases stepEffect_of_step hr h with
  | stays position same =>
    obtain ⟨_, _, _, rfl⟩ := same
    obtain hp | ⟨hp, hc⟩ | hp := position
    · simp [hp]
    · simp [hp, hc]
    · simp [hp]
  | init key nonce ctr len ready decoded _ _ next => simp [next, ready]
  | accept opcode n len ready decoded initd nonzero next =>
    simp only [ready, reduceCtorEq, false_implies, and_true, true_implies]
    exact .inr ⟨by simp [next], initd, n, len, nonzero, decoded⟩
  | regenStart loop fires next => simp [next, loop, fires]
  | mix f regen upc keeps next =>
    have : s.upc ≠ 84#7 := by bv_omega
    simp [next, regen, this]
  | ser x regen upc next => simp [next, regen, upc]
  | ctrinc c regen upc counter next => simp [next, regen, upc]
  | curclr regen upc next => simp [next, regen, upc]
  | xorb n i d k rest issued bn bi below cur data byte next =>
    have moved := xorbDone_transition bn bi (d ^^^ k) rest
    rw [← next] at moved
    obtain ⟨hp, hc⟩ | hp := issued
    · simp only [hp, reduceCtorEq, false_implies, and_true, true_and, true_implies]
      exact ⟨fun h => absurd h hc, fun _ => .inr moved⟩
    · simp only [hp, reduceCtorEq, false_implies, true_and, true_implies]
      exact .inr moved

/-- Settles O1: State.reset holds the values of R37. -/
theorem resetLeavesSpecState : Obligations.ResetLeavesSpecState := by
  unfold Obligations.ResetLeavesSpecState
  refine ⟨rfl, rfl, rfl, rfl, by decide, by decide, fun j => ?_, rfl, rfl, rfl, rfl, rfl, rfl, rfl⟩
  simp [memRead, lookup, State.reset]

/-- Settles O2: S[0..3] are no part of the state. -/
theorem constantsAreHardwired : Obligations.ConstantsAreHardwired := by
  unfold Obligations.ConstantsAreHardwired
  exact fun _ => ⟨rfl, rfl, rfl, rfl⟩

/-- Settles O38, along the branches of the step. -/
theorem stepRunsDecodedCommand : Obligations.StepRunsDecodedCommand := by
  unfold Obligations.StepRunsDecodedCommand
  intro s i len hr hf hp hd
  have ready : nextAction s = .run i (s.take len) := by
    simp [nextAction, hr, hf, hp, readyAction, State.stream, hd]
  simp only [step, ready]
  rfl

/-- Settles O49. -/
theorem resetMeetsInvariant : Obligations.ResetMeetsInvariant := reset_inv

end Sys2Proof.Machine

/-! SUPPORT. What a step can leave in KS, and the obligation of 20_memory.md that follows from it. -/

namespace Sys2Proof.Machine

/-- KS is left as it was, or SER has serialized sixteen words into it (20_memory.md R55). -/
theorem StepEffect.ks_cases {s t : State} (h : StepEffect s t) :
    t.ks = s.ks ∨ ∃ x, t.ks = serialize s.ks x := by
  cases h with
  | ser x _ _ next => exact .inr ⟨x, by simp [next]⟩
  | stays _ same =>
    obtain ⟨_, _, _, rfl⟩ := same
    exact .inl rfl
  -- Every other effect leaves KS as it was.
  | _ => simp [*]

theorem StepEffect.keeps_memory_wf {s t : State} (h : StepEffect s t) (hm : Memory.wf s.ks = true) :
    Memory.wf t.ks = true := by
  obtain same | ⟨x, serialized⟩ := h.ks_cases
  · exact same ▸ hm
  · exact serialized ▸ serialize_wf s.ks x hm

/-- Settles O52: the reset event empties KS, and every other effect of a step keeps its form. -/
theorem stepKeepsKsCanonical : Obligations.StepKeepsKsCanonical := by
  unfold Obligations.StepKeepsKsCanonical
  intro s t hm h
  cases hr : s.resetLine with
  | false => exact (stepEffect_of_step hr h).keeps_memory_wf hm
  | true =>
    rw [step_of_reset hr, Host.Outcome.next.injEq] at h
    exact h ▸ reset_memory_wf

end Sys2Proof.Machine

/-! SUPPORT. The two decoders and the encoder are inverse, and the tables of 30_encoding.md: the assigned micro-op codes
(R81), the illegal opcodes (R77) and the ROM (R82). -/

namespace Sys2Proof.Machine

/-! ## Commands: from the fields to the answer (30_encoding.md R72 to R75) -/

/-- Format CI: the two length bytes cut the bytes after them into the key, the nonce and the counter. -/
theorem decodeCommand_init_fields {klen nlen : Byte} {key nonce : List Byte} (hk : key.length = klen.toNat)
    (hn : nonce.length = nlen.toNat) (c0 c1 c2 c3 : Byte) (rest : List Byte) :
    decodeCommand (0x01#8 :: klen :: nlen :: (key ++ (nonce ++ (c0 :: c1 :: c2 :: c3 :: rest)))) =
      .complete (.init key nonce (le32 c0 c1 c2 c3)) (7 + klen.toNat + nlen.toNat) := by
  simp [decodeCommand, decodeInit, ← hk, ← hn]

theorem decodeCommand_encrypt_fields (l0 l1 l2 l3 : Byte) (rest : List Byte) :
    decodeCommand (0x02#8 :: l0 :: l1 :: l2 :: l3 :: rest) = .complete (.encrypt (le32 l0 l1 l2 l3)) 5 := rfl

theorem decodeCommand_decrypt_fields (l0 l1 l2 l3 : Byte) (rest : List Byte) :
    decodeCommand (0x03#8 :: l0 :: l1 :: l2 :: l3 :: rest) = .complete (.decrypt (le32 l0 l1 l2 l3)) 5 := rfl

/-! ## Commands: from the answer to the fields -/

/-- Format CI is accepted only where `klen + nlen` bytes and four more follow the two length bytes. -/
theorem decodeInit_complete_fields {bs : List Byte} {i : Instr} {len : Nat} (h : decodeInit bs = .complete i len) :
    ∃ klen nlen key nonce c0 c1 c2 c3 rest, key.length = klen.toNat ∧ nonce.length = nlen.toNat ∧
      bs = klen :: nlen :: (key ++ (nonce ++ (c0 :: c1 :: c2 :: c3 :: rest))) ∧
      i = .init key nonce (le32 c0 c1 c2 c3) ∧ len = 7 + key.length + nonce.length := by
  unfold decodeInit at h
  split at h
  case h_2 => cases h
  case h_1 klen nlen body =>
    simp only at h
    split at h
    case h_2 => cases h
    case h_1 c0 c1 c2 c3 rest hdrop =>
      obtain ⟨rfl, rfl⟩ := CommandRead.complete.inj h
      have hlen := congrArg List.length hdrop
      rw [List.length_drop] at hlen
      simp only [List.length_cons] at hlen
      have hk : (body.take klen.toNat).length = klen.toNat := List.length_take_of_le (by omega)
      have hn : ((body.drop klen.toNat).take nlen.toNat).length = nlen.toNat :=
        List.length_take_of_le (by rw [List.length_drop]; omega)
      refine ⟨klen, nlen, _, _, c0, c1, c2, c3, rest, hk, hn, ?_, rfl, by rw [hk, hn]⟩
      rw [← hdrop, ← List.drop_drop, List.take_append_drop, List.take_append_drop]

theorem decodeCx_complete_fields {mk : Word → Instr} {bs : List Byte} {i : Instr} {len : Nat}
    (h : decodeCx mk bs = .complete i len) :
    ∃ l0 l1 l2 l3 rest, bs = l0 :: l1 :: l2 :: l3 :: rest ∧ i = mk (le32 l0 l1 l2 l3) ∧ len = 5 := by
  unfold decodeCx at h
  split at h
  · obtain ⟨rfl, rfl⟩ := CommandRead.complete.inj h
    exact ⟨_, _, _, _, _, rfl, rfl, rfl⟩
  · cases h

/-! ## The encoder -/

theorem encode_init (klen nlen : Byte) {key nonce : List Byte} (hk : key.length = klen.toNat)
    (hn : nonce.length = nlen.toNat) (ctr : Word) :
    encode (.init key nonce ctr) = 0x01#8 :: klen :: nlen :: (key ++ (nonce ++ bytesOf ctr)) := by
  simp [encode, Instr.code, Instr.operandBytes, hk, hn]

theorem length_encode_init (key nonce : List Byte) (ctr : Word) :
    (encode (.init key nonce ctr)).length = 7 + key.length + nonce.length := by
  simp only [encode, Instr.operandBytes, bytesOf, List.length_cons, List.length_append, List.length_nil]
  omega

/-- The code sets of 30_encoding.md R70, for every instruction. -/
theorem codeSets_statement (i : Instr) : Laws.CodeSets.Statement i := by
  cases i with
  | init key nonce ctr => exact Laws.CodeSets.init key nonce ctr
  | encrypt n => exact Laws.CodeSets.encrypt n
  | decrypt n => exact Laws.CodeSets.decrypt n
  | ldw => exact Laws.CodeSets.ldw
  | qrC0 => exact Laws.CodeSets.qrC0
  | qrC1 => exact Laws.CodeSets.qrC1
  | qrC2 => exact Laws.CodeSets.qrC2
  | qrC3 => exact Laws.CodeSets.qrC3
  | qrD0 => exact Laws.CodeSets.qrD0
  | qrD1 => exact Laws.CodeSets.qrD1
  | qrD2 => exact Laws.CodeSets.qrD2
  | qrD3 => exact Laws.CodeSets.qrD3
  | ffadd => exact Laws.CodeSets.ffadd
  | ser => exact Laws.CodeSets.ser
  | ctrinc => exact Laws.CodeSets.ctrinc
  | curclr => exact Laws.CodeSets.curclr
  | xorb => exact Laws.CodeSets.xorb

theorem encode_microOp {i : Instr} (h : i.isCommand = false) : encode i = [i.code] ∧ decodeMicro i.code = .op i := by
  obtain ⟨-, micro, -, -⟩ := codeSets_statement i
  exact micro h

theorem decodeMicro_code (i : Instr) (h : i.isCommand = false) : decodeMicro i.code = .op i := (encode_microOp h).2

/-! ## The two are inverse on commands -/

/-- At most 255 bytes have their length in one byte. -/
theorem length_eq_toNat_ofNat {bs : List Byte} (h : bs.length ≤ 255) :
    bs.length = (BitVec.ofNat 8 bs.length).toNat := by
  rw [BitVec.toNat_ofNat, Nat.mod_eq_of_lt (by omega)]

theorem decodeCommand_encode {i : Instr} (hwf : i.wf = true) (hc : i.isCommand = true) (rest : List Byte) :
    decodeCommand (encode i ++ rest) = .complete i (encode i).length := by
  cases i with
  | init key nonce ctr =>
    obtain ⟨hkey, hnonce⟩ : key.length ≤ 255 ∧ nonce.length ≤ 255 := by simpa [Instr.wf] using hwf
    have hk := length_eq_toNat_ofNat hkey
    have hn := length_eq_toNat_ofNat hnonce
    have fields := decodeCommand_init_fields hk hn (byteOf 0 ctr) (byteOf 1 ctr) (byteOf 2 ctr) (byteOf 3 ctr) rest
    rw [le32_byteOf, ← hk, ← hn] at fields
    rw [length_encode_init, encode_init _ _ hk hn]
    simpa [bytesOf] using fields
  | encrypt n =>
    have fields := decodeCommand_encrypt_fields (byteOf 0 n) (byteOf 1 n) (byteOf 2 n) (byteOf 3 n) rest
    rwa [le32_byteOf] at fields
  | decrypt n =>
    have fields := decodeCommand_decrypt_fields (byteOf 0 n) (byteOf 1 n) (byteOf 2 n) (byteOf 3 n) rest
    rwa [le32_byteOf] at fields
  -- A micro-op is no command.
  | _ => cases hc

/-- The bytes the command decoder accepts are the encoding of its answer and what follows it. -/
theorem decodeCommand_complete_encode {bs : List Byte} {i : Instr} {len : Nat}
    (h : decodeCommand bs = .complete i len) :
    i.wf = true ∧ i.isCommand = true ∧ len = (encode i).length ∧ ∃ rest, bs = encode i ++ rest := by
  unfold decodeCommand at h
  split at h
  · cases h
  · split_ifs at h with hinit hencrypt hdecrypt
    · obtain ⟨klen, nlen, key, nonce, c0, c1, c2, c3, rest, hk, hn, rfl, rfl, rfl⟩ := decodeInit_complete_fields h
      have hkey := klen.isLt
      have hnonce := nlen.isLt
      refine ⟨?_, rfl, (length_encode_init _ _ _).symm, rest, ?_⟩
      · rw [Instr.wf, Bool.and_eq_true, decide_eq_true_eq, decide_eq_true_eq]
        omega
      · rw [encode_init klen nlen hk hn, bytesOf_le32, hinit]
        simp
    · obtain ⟨l0, l1, l2, l3, rest, rfl, rfl, rfl⟩ := decodeCx_complete_fields h
      exact ⟨rfl, rfl, rfl, rest, by simp [encode, Instr.code, Instr.operandBytes, hencrypt]⟩
    · obtain ⟨l0, l1, l2, l3, rest, rfl, rfl, rfl⟩ := decodeCx_complete_fields h
      exact ⟨rfl, rfl, rfl, rest, by simp [encode, Instr.code, Instr.operandBytes, hdecrypt]⟩

/-! ## Illegal opcodes (30_encoding.md R77) -/

theorem decodeInit_ne_illegal (bs : List Byte) (op : Byte) : decodeInit bs ≠ .illegal op := by
  unfold decodeInit
  split
  · dsimp only
    split <;> simp
  · simp

theorem decodeCx_ne_illegal (mk : Word → Instr) (bs : List Byte) (op : Byte) : decodeCx mk bs ≠ .illegal op := by
  unfold decodeCx
  split <;> simp

theorem decodeCommand_cons_eq_illegal_iff (op : Byte) (bs : List Byte) :
    decodeCommand (op :: bs) = .illegal op ↔ op ≠ 0x01#8 ∧ op ≠ 0x02#8 ∧ op ≠ 0x03#8 := by
  rw [decodeCommand]
  split_ifs with hinit hencrypt hdecrypt
  · simp [hinit, decodeInit_ne_illegal]
  · simp [hencrypt, decodeCx_ne_illegal]
  · simp [hdecrypt, decodeCx_ne_illegal]
  · simp [hinit, hencrypt, hdecrypt]

/-! ## Micro-op codes (30_encoding.md R80, R81, R83) -/

/-- A code is its `cls` above its `arg`. -/
theorem toNat_code (c : Byte) : c.toNat = 16 * (c.extractLsb' 4 4).toNat + (c.extractLsb' 0 4).toNat := by
  have := c.isLt
  rw [BitVec.extractLsb'_toNat, BitVec.extractLsb'_toNat, Nat.shiftRight_eq_div_pow, Nat.shiftRight_eq_div_pow]
  omega

theorem code_eq_of_nibbles {c d : Byte} {cls arg : Nat} (hcls : (c.extractLsb' 4 4).toNat = cls)
    (harg : (c.extractLsb' 0 4).toNat = arg) (hd : d.toNat = 16 * cls + arg) : c = d :=
  BitVec.eq_of_toNat_eq (by rw [toNat_code, hcls, harg, hd])

/-- The eight QR micro-ops share `cls` 1, and `arg` is the rest of their codes. -/
theorem code_of_decodeQr :
    ∀ arg : BitVec 4, ∀ i ∈ decodeQr arg, i.isCommand = false ∧ i.code.toNat = 16 * 1 + arg.toNat := by
  decide

/-- A micro-op is decoded from its own code only: every `cls` but that of the QR micro-ops asks `arg` to be 0. -/
theorem code_of_decodeMicro {c : Byte} {i : Instr} (h : decodeMicro c = .op i) : i.isCommand = false ∧ c = i.code := by
  have plain {j : Instr} {cls : Nat} (hj : j.isCommand = false ∧ j.code.toNat = 16 * cls + 0)
      (hcls : (c.extractLsb' 4 4).toNat = cls) (harg : c.extractLsb' 0 4 = 0) (hji : some j = some i) :
      i.isCommand = false ∧ c = i.code := by
    obtain rfl := Option.some.inj hji
    exact ⟨hj.1, code_eq_of_nibbles hcls (congrArg BitVec.toNat harg) hj.2⟩
  unfold decodeMicro at h
  simp only at h
  split at h
  case h_2 => cases h
  case h_1 j hfound =>
    obtain rfl := MicroRead.op.inj h
    split_ifs at hfound with hcls harg hcls hcls harg hcls harg hcls harg hcls harg hcls harg
    · exact plain (by decide) hcls harg hfound
    · obtain ⟨hmicro, hcode⟩ := code_of_decodeQr _ _ hfound
      exact ⟨hmicro, code_eq_of_nibbles hcls rfl hcode⟩
    · exact plain (by decide) hcls harg hfound
    · exact plain (by decide) hcls harg hfound
    · exact plain (by decide) hcls harg hfound
    · exact plain (by decide) hcls harg hfound
    · exact plain (by decide) hcls harg hfound

/-- A code that no micro-op has is reserved (30_encoding.md R83). -/
theorem decodeMicro_reserved {c : Byte} (h : ∀ i : Instr, i.isCommand = false → c ≠ i.code) :
    decodeMicro c = .reserved c := by
  cases hd : decodeMicro c with
  | op i =>
    obtain ⟨hmicro, hcode⟩ := code_of_decodeMicro hd
    exact absurd hcode (h i hmicro)
  | reserved d =>
    unfold decodeMicro at hd
    simp only at hd
    split at hd
    · cases hd
    · exact hd.symm

/-! ## The ROM (30_encoding.md R82) -/

theorem romDoubleRound_getElem? : ∀ g < 8, romDoubleRound[g]? = some (0x10#8 + BitVec.ofNat 8 g) := by decide

theorem romRounds_getElem? {n r g : Nat} (hr : r < n) (hg : g < 8) :
    (romRounds n)[8 * r + g]? = some (0x10#8 + BitVec.ofNat 8 g) := by
  induction n generalizing r with
  | zero => omega
  | succ n ih =>
    rw [romRounds]
    cases r with
    | zero => rw [Nat.mul_zero, Nat.zero_add, List.getElem?_append_left hg, romDoubleRound_getElem? g hg]
    | succ r =>
      have hlen : romDoubleRound.length = 8 := rfl
      rw [List.getElem?_append_right (by omega), hlen, show 8 * (r + 1) + g - 8 = 8 * r + g by omega]
      exact ih (by omega)

/-- The double rounds stand at UPC 1..80. -/
theorem rom_succ_getElem? {u : Nat} (h : u < 80) : rom[u + 1]? = (romRounds Config.doubleRounds)[u]? := by
  have hu : u < (romRounds Config.doubleRounds).length := by rwa [length_romRounds, Config.doubleRounds]
  rw [rom, List.append_assoc, List.singleton_append, List.getElem?_cons_succ, List.getElem?_append_left hu]

theorem length_rom : rom.length = 85 := by
  simp [rom, length_romRounds, Config.doubleRounds]

theorem xorb_not_mem_rom : 0x60#8 ∉ rom := by
  intro hmem
  obtain ⟨u, hu⟩ := List.mem_iff_getElem?.mp hmem
  obtain ⟨-, h⟩ | ⟨-, -, h⟩ | ⟨-, h⟩ | ⟨-, h⟩ | ⟨-, h⟩ | ⟨-, h⟩ := rom_cases hu (decodeMicro_code .xorb rfl)
  all_goals simp [qrOps] at h

/-! ## The obligations of 30_encoding.md -/

/-- Settles O6, by cases of the kind of instruction. -/
theorem decodeOfEncodeIsIdentity : Obligations.DecodeOfEncodeIsIdentity := by
  unfold Obligations.DecodeOfEncodeIsIdentity
  exact fun i rest hwf => ⟨fun hc => decodeCommand_encode hwf hc rest, encode_microOp⟩

/-- Settles O7: what the decoder takes is the encoding at the head of the bytes. -/
theorem encodeOfDecodeIsIdentity : Obligations.EncodeOfDecodeIsIdentity := by
  unfold Obligations.EncodeOfDecodeIsIdentity
  intro bs i len h
  obtain ⟨hwf, hc, rfl, rest, rfl⟩ := decodeCommand_complete_encode h
  exact ⟨hwf, hc, List.take_left, by simp⟩

/-- Settles O8, from the fields of each format. -/
theorem commandFields : Obligations.CommandFields := by
  unfold Obligations.CommandFields
  refine ⟨fun _ _ c0 c1 c2 c3 _ _ rest hk hn => ?_, fun l0 l1 l2 l3 rest => ⟨?_, ?_⟩⟩
  · exact decodeCommand_init_fields hk hn c0 c1 c2 c3 rest
  · exact decodeCommand_encrypt_fields l0 l1 l2 l3 rest
  · exact decodeCommand_decrypt_fields l0 l1 l2 l3 rest

/-- Settles O9: a byte is 0x00 or at least 0x04 exactly where it is none of the three opcodes. -/
theorem illegalOpcodes : Obligations.IllegalOpcodes := by
  unfold Obligations.IllegalOpcodes
  intro op bs
  rw [decodeCommand_cons_eq_illegal_iff]
  bv_omega

/-- Settles O10: a micro-op is decoded from its own code, and from no other. -/
theorem microOpCodes : Obligations.MicroOpCodes := by
  unfold Obligations.MicroOpCodes
  refine ⟨decodeMicro_code .ldw rfl, ⟨decodeMicro_code .qrC0 rfl, rfl⟩, ⟨decodeMicro_code .qrC1 rfl, rfl⟩,
    ⟨decodeMicro_code .qrC2 rfl, rfl⟩, ⟨decodeMicro_code .qrC3 rfl, rfl⟩, ⟨decodeMicro_code .qrD0 rfl, rfl⟩,
    ⟨decodeMicro_code .qrD1 rfl, rfl⟩, ⟨decodeMicro_code .qrD2 rfl, rfl⟩, ⟨decodeMicro_code .qrD3 rfl, rfl⟩,
    decodeMicro_code .ffadd rfl, decodeMicro_code .ser rfl, decodeMicro_code .ctrinc rfl,
    decodeMicro_code .curclr rfl, decodeMicro_code .xorb rfl, fun c unassigned => decodeMicro_reserved ?_⟩
  rintro i hmicro rfl
  cases i <;> simp [Instr.code, Instr.isCommand] at unassigned hmicro

/-- Settles O11: entry `1 + 8 r + g` stands at `8 r + g` in the ten double rounds. -/
theorem romContents : Obligations.RomContents := by
  unfold Obligations.RomContents
  refine ⟨length_rom, rfl, fun r g hr hg => ?_, by decide, by decide, by decide, by decide, xorb_not_mem_rom⟩
  rw [show 1 + 8 * r + g = 8 * r + g + 1 by omega, rom_succ_getElem? (by omega)]
  exact romRounds_getElem? hr hg

end Sys2Proof.Machine

/-! SUPPORT. What INIT, ENCRYPT and DECRYPT leave, and the obligations of 40_init.md that follow from it. -/

namespace Sys2Proof.Machine

/-! ## The two answers of INIT to a host that takes bytes (40_init.md R100, R102) -/

theorem exec_init_accepted {key nonce : List Byte} {s : State} (hk : key.length = 32) (hn : nonce.length = 12)
    (hr : s.rspReady = true) (ctr : Word) :
    exec (.init key nonce ctr) s = .next ((s.loadCipher key nonce ctr).consumed.send statusOk) := by
  rw [exec, execInit_eq, if_pos ⟨hk, hn⟩, if_pos hr]

theorem exec_init_rejected {key nonce : List Byte} {s : State} (hlen : key.length ≠ 32 ∨ nonce.length ≠ 12)
    (hr : s.rspReady = true) (ctr : Word) :
    exec (.init key nonce ctr) s = .next (s.consumed.send ErrorKind.validation.code) := by
  rw [exec, execInit_eq, if_neg (by omega), raise_ready _ _ hr]

/-- INIT waits with nothing changed, is rejected, or loads the cipher state; `execInit_next` does not say that the first
two keep the command stream. -/
theorem exec_init_outcomes {key nonce : List Byte} {ctr : Word} {s t : State}
    (h : exec (.init key nonce ctr) s = .next t) :
    t = s ∨ t = s.consumed.send ErrorKind.validation.code ∨
      t = (s.loadCipher key nonce ctr).consumed.send statusOk := by
  rw [exec, execInit_eq, raise_eq] at h
  split_ifs at h
  · exact .inr (.inr (Host.Outcome.next.inj h).symm)
  · exact .inl (Host.Outcome.next.inj h).symm
  · exact .inr (.inl (Host.Outcome.next.inj h).symm)
  · exact .inl (Host.Outcome.next.inj h).symm

/-! ## Where a load leaves the block in its keystream (43_stream_updater.md R180) -/

theorem written_ofFn {n : Nat} (f : Fin n → Word) : written (Vector.ofFn f) = Vector.ofFn fun i => some (f i) := by
  ext i hi : 1
  simp

/-- At offset 0 no block has been generated, so nothing is asked of KS. -/
theorem positioned_loadCipher (key nonce : List Byte) (ctr : Word) (s : State) :
    State.Positioned (Vector.ofFn fun i => wordAt key i.val) (Vector.ofFn fun i => wordAt nonce i.val) ctr 0
      (s.loadCipher key nonce ctr) where
  initd := s.loadCipher_initd key nonce ctr
  key := by rw [State.loadCipher_key, written_ofFn]
  nonce := by rw [State.loadCipher_nonce, written_ofFn]
  ctr := by simp
  cur := by simp
  ks h := absurd rfl h

/-- The position says nothing of the streams. -/
theorem State.Positioned.of_sameButStreams {kw : Vector Word 8} {nw : Vector Word 3} {c0 : Word} {k : Nat}
    {s t : State} (hp : s.Positioned kw nw c0 k) (h : s.sameButStreams t) : t.Positioned kw nw c0 k := by
  obtain ⟨_, _, _, rfl⟩ := h
  exact ⟨hp.initd, hp.key, hp.nonce, hp.ctr, hp.cur, hp.ks⟩

/-! ## The frame of ENCRYPT and DECRYPT (43_stream_updater.md R170, R171) -/

theorem streamCommand_frame {opcode : Byte} {n : Word} {s t : State} (h : streamCommand opcode n s = .next t) :
    s.sameS t ∧ s.sameW t ∧ s.sameKs t ∧ t.cur = s.cur ∧ t.initd = s.initd ∧ t.upc = s.upc ∧ s.sameInputs t := by
  obtain ⟨_, _, _, rfl⟩ | ⟨-, -, rfl⟩ := streamCommand_next h
  · exact ⟨⟨rfl, rfl, rfl⟩, rfl, fun _ => rfl, rfl, rfl, rfl, rfl, rfl⟩
  · exact ⟨⟨rfl, rfl, rfl⟩, rfl, fun _ => rfl, rfl, rfl, rfl, rfl, rfl⟩

/-! ## The obligations of 40_init.md -/

/-- Settles O29: the load stands at offset 0, and the rest of INIT touches the streams only. -/
theorem initStartsFreshKeystream : Obligations.InitStartsFreshKeystream := by
  unfold Obligations.InitStartsFreshKeystream
  intro s key nonce ctr hk hn hr
  exact ⟨_, exec_init_accepted hk hn hr ctr,
    (positioned_loadCipher key nonce ctr s).of_sameButStreams (sameButStreams_consumed_send statusOk _)⟩

/-- Settles O37, by cases of the outcome of each command. -/
theorem frameOfCommands : Obligations.FrameOfCommands := by
  unfold Obligations.FrameOfCommands
  refine ⟨fun s t key nonce ctr h => ?_, fun s t n h => ?_⟩
  · obtain rfl | rfl | rfl := exec_init_outcomes h
    all_goals exact ⟨rfl, fun _ => rfl, rfl, rfl, ⟨rfl, rfl, rfl⟩, rfl, rfl, rfl⟩
  · obtain h | h := h
    all_goals exact streamCommand_frame h

/-- Settles O27: word `i` of S[4..11] and of S[13..15] is `wordAt` of the operand. -/
theorem initLoadsCipherState : Obligations.InitLoadsCipherState := by
  unfold Obligations.InitLoadsCipherState
  intro s key nonce ctr hk hn hr
  refine ⟨(s.loadCipher key nonce ctr).key, (s.loadCipher key nonce ctr).nonce,
    exec_init_accepted hk hn hr ctr, fun i => ?_, fun i => ?_⟩
  · simp [wordAt]
  · simp [wordAt]

/-- Settles O28: the rejection only uses up the bytes taken and sends the status. -/
theorem rejectedInitChangesNothing : Obligations.RejectedInitChangesNothing := by
  unfold Obligations.RejectedInitChangesNothing
  exact fun _ _ _ ctr hlen hr => exec_init_rejected hlen hr ctr

end Sys2Proof.Machine

/-! SUPPORT. The rotation and QR are bijections, each with its inverse written out, and what a QR micro-op does and
leaves unchanged; the obligations of 41_quarter_round.md follow. -/

namespace Sys2Proof.Machine

/-! ## Rotation (41_quarter_round.md R122) -/

theorem rotl32_eq_rotateLeft (x : Word) {n : Nat} (hn : n < 32) : rotl32 x n = x.rotateLeft n := by
  rw [rotl32, BitVec.rotateLeft_def, Nat.mod_eq_of_lt hn]

/-- The low `n` bits come from the top. -/
theorem getLsbD_rotl32_low (x : Word) {n k : Nat} (hn : n < 32) (hk : k < n) :
    (rotl32 x n).getLsbD k = x.getLsbD (32 - n + k) := by
  simp [rotl32_eq_rotateLeft x hn, BitVec.getLsbD_rotateLeft_of_le hn, hk]

/-- The other bits move up by `n`. -/
theorem getLsbD_rotl32_add (x : Word) {n k : Nat} (hn : n < 32) (hk : k < 32 - n) :
    (rotl32 x n).getLsbD (n + k) = x.getLsbD k := by
  rw [rotl32_eq_rotateLeft x hn, BitVec.getLsbD_rotateLeft_of_le hn]
  simp [show n + k < 32 by omega]

/-- Rotating on by the rest of the word undoes a rotation. -/
theorem rotl32_rotl32_sub (x : Word) {n : Nat} (h1 : 1 ≤ n) (h31 : n ≤ 31) : rotl32 (rotl32 x n) (32 - n) = x := by
  apply BitVec.eq_of_getLsbD_eq
  intro k hk
  by_cases hlow : k < 32 - n
  · rw [getLsbD_rotl32_low _ (by omega) hlow, show 32 - (32 - n) + k = n + k by omega,
      getLsbD_rotl32_add x (by omega) hlow]
  · obtain ⟨j, rfl⟩ := Nat.exists_eq_add_of_le (Nat.le_of_not_lt hlow)
    rw [getLsbD_rotl32_add _ (by omega) (by omega), getLsbD_rotl32_low x (by omega) (by omega)]

/-- The other way round. -/
theorem rotl32_sub_rotl32 (x : Word) {n : Nat} (h1 : 1 ≤ n) (h31 : n ≤ 31) : rotl32 (rotl32 x (32 - n)) n = x := by
  have h := rotl32_rotl32_sub x (n := 32 - n) (by omega) (by omega)
  rwa [show 32 - (32 - n) = n by omega] at h

theorem rotl32_bijective {n : Nat} (h1 : 1 ≤ n) (h31 : n ≤ 31) : Function.Bijective fun x : Word => rotl32 x n :=
  Function.bijective_iff_has_inverse.mpr
    ⟨fun x => rotl32 x (32 - n), fun x => rotl32_rotl32_sub x h1 h31, fun x => rotl32_sub_rotl32 x h1 h31⟩

/-- The places of a word in two runs, of `m` and of `n`. -/
theorem countP_range_add (p : Nat → Bool) (m n : Nat) :
    (List.range (m + n)).countP p = (List.range m).countP p + (List.range n).countP fun k => p (m + k) := by
  rw [List.range_add, List.countP_append, List.countP_map]
  rfl

/-- The two runs of bits that a rotation exchanges hold as many ones as before. -/
theorem countP_getLsbD_rotl32 (x : Word) {n : Nat} (hn : n < 32) :
    (List.range 32).countP (fun k => (rotl32 x n).getLsbD k) = (List.range 32).countP fun k => x.getLsbD k := by
  have hlow : (List.range n).countP (fun k => (rotl32 x n).getLsbD k) =
      (List.range n).countP fun k => x.getLsbD (32 - n + k) :=
    List.countP_congr fun k hk => by rw [getLsbD_rotl32_low x hn (List.mem_range.mp hk)]
  have hhigh : (List.range (32 - n)).countP (fun k => (rotl32 x n).getLsbD (n + k)) =
      (List.range (32 - n)).countP fun k => x.getLsbD k :=
    List.countP_congr fun k hk => by rw [getLsbD_rotl32_add x hn (List.mem_range.mp hk)]
  calc (List.range 32).countP (fun k => (rotl32 x n).getLsbD k)
      = (List.range (n + (32 - n))).countP fun k => (rotl32 x n).getLsbD k := by rw [Nat.add_sub_cancel' hn.le]
    _ = (List.range (32 - n + n)).countP fun k => x.getLsbD k := by
      rw [countP_range_add, countP_range_add, hlow, hhigh, Nat.add_comm]
    _ = (List.range 32).countP fun k => x.getLsbD k := by rw [Nat.sub_add_cancel hn.le]

/-! ## The quarter round (41_quarter_round.md R123) -/

/-- Six of the twelve operations: `a += b; d ^= a; d <<<= m; c += d; b ^= c; b <<<= n`. -/
def qrHalf (m n : Nat) : Word × Word × Word × Word → Word × Word × Word × Word
  | (a, b, c, d) =>
    let a' := add32 a b
    let d' := rotl32 (xor32 d a') m
    let c' := add32 c d'
    (a', rotl32 (xor32 b c') n, c', d')

/-- The six operations undone, the last first. -/
def qrHalfInverse (m n : Nat) : Word × Word × Word × Word → Word × Word × Word × Word
  | (a', b', c', d') =>
    let b := xor32 (rotl32 b' (32 - n)) c'
    (a' - b, b, c' - d', xor32 (rotl32 d' (32 - m)) a')

/-- QR is its two halves, with rotations 16, 12 and 8, 7. -/
theorem qr_eq_qrHalf (v : Word × Word × Word × Word) :
    qr v.1 v.2.1 v.2.2.1 v.2.2.2 = qrHalf 8 7 (qrHalf 16 12 v) := rfl

theorem qrHalfInverse_qrHalf {m n : Nat} (hm : 1 ≤ m ∧ m ≤ 31) (hn : 1 ≤ n ∧ n ≤ 31) (v : Word × Word × Word × Word) :
    qrHalfInverse m n (qrHalf m n v) = v := by
  obtain ⟨a, b, c, d⟩ := v
  simp [qrHalf, qrHalfInverse, add32, xor32, rotl32_rotl32_sub _ hm.1 hm.2, rotl32_rotl32_sub _ hn.1 hn.2]

theorem qrHalf_qrHalfInverse {m n : Nat} (hm : 1 ≤ m ∧ m ≤ 31) (hn : 1 ≤ n ∧ n ≤ 31) (v : Word × Word × Word × Word) :
    qrHalf m n (qrHalfInverse m n v) = v := by
  obtain ⟨a, b, c, d⟩ := v
  simp [qrHalf, qrHalfInverse, add32, xor32, rotl32_sub_rotl32 _ hm.1 hm.2, rotl32_sub_rotl32 _ hn.1 hn.2]

theorem qrHalf_bijective {m n : Nat} (hm : 1 ≤ m ∧ m ≤ 31) (hn : 1 ≤ n ∧ n ≤ 31) : Function.Bijective (qrHalf m n) :=
  Function.bijective_iff_has_inverse.mpr
    ⟨qrHalfInverse m n, qrHalfInverse_qrHalf hm hn, qrHalf_qrHalfInverse hm hn⟩

theorem qr_bijective :
    Function.Bijective fun v : Word × Word × Word × Word => qr v.1 v.2.1 v.2.2.1 v.2.2.2 := by
  simp only [qr_eq_qrHalf]
  exact (qrHalf_bijective (by decide) (by decide)).comp (qrHalf_bijective (by decide) (by decide))

/-! ## The QR micro-ops (41_quarter_round.md R124) -/

theorem setFour_getElem_of_not_mem (f : Vector (Option Word) 16) {a b c d : Fin 16} (r : Word × Word × Word × Word)
    {j : Fin 16} (hj : j ∉ [a, b, c, d]) : (setFour f a b c d r)[j] = f[j] := by
  simp only [List.mem_cons, List.not_mem_nil, or_false, not_or] at hj
  obtain ⟨ha, hb, hc, hd⟩ := hj
  rw [setFour_getElem, if_neg (Ne.symm hd), if_neg (Ne.symm hc), if_neg (Ne.symm hb), if_neg (Ne.symm ha)]

/-- The four words of a group are all different, so no write of the four hides another. -/
theorem setFour_getElem_group (f : Vector (Option Word) 16) {a b c d : Fin 16} (hg : [a, b, c, d].Nodup)
    (r : Word × Word × Word × Word) :
    (setFour f a b c d r)[a] = some r.1 ∧ (setFour f a b c d r)[b] = some r.2.1 ∧
      (setFour f a b c d r)[c] = some r.2.2.1 ∧ (setFour f a b c d r)[d] = some r.2.2.2 := by
  obtain ⟨⟨hab, hac, had⟩, ⟨hbc, hbd⟩, hcd⟩ : (a ≠ b ∧ a ≠ c ∧ a ≠ d) ∧ (b ≠ c ∧ b ≠ d) ∧ c ≠ d := by simpa using hg
  simp only [setFour_getElem, hab.symm, hac.symm, had.symm, hbc.symm, hbd.symm, hcd.symm, if_true, if_false, and_self]

theorem qrMicro_keeps_other_words (a b c d : Fin 16) (s t : State) (h : qrMicro a b c d s = .next t) (j : Fin 16)
    (hj : j ∉ [a, b, c, d]) : t.w[j] = s.w[j] := by
  obtain ⟨_, _, _, _, -, -, -, -, rfl⟩ := qrMicro_next a b c d s t h
  exact setFour_getElem_of_not_mem s.w _ hj

/-- An instruction that runs `qrMicro` on four different words meets R124. -/
theorem qrMicroOp_of_exec {code : Byte} {i : Instr} {a b c d : Fin 16} (hcode : decodeMicro code = .op i)
    (he : ∀ s, exec i s = qrMicro a b c d s) (hg : [a, b, c, d].Nodup) : QrMicroOp code i a b c d := by
  refine ⟨hcode, fun s wa wb wc wd ha hb hc hd => ?_⟩
  refine ⟨setFour s.w a b c d (qr wa wb wc wd), ?_, ⟨_, _, _, _, rfl, setFour_getElem_group s.w hg _⟩,
    fun j hja hjb hjc hjd => setFour_getElem_of_not_mem s.w _ (by simp [hja, hjb, hjc, hjd])⟩
  rw [he, qrMicro_eq a b c d s wa wb wc wd ha hb hc hd]
  rfl

/-! ## What LDW, FFADD and the QR micro-ops write -/

/-- The outcome says which words; for the frame it is enough that W alone is written, and UPC advances. -/
theorem exec_workingBufferOp_next {i : Instr} {s t : State} (hi : i ∈ .ldw :: .ffadd :: qrOps)
    (h : exec i s = .next t) : ∃ f, t = (s.writeW f).upcNext := by
  obtain rfl | rfl | hq : i = .ldw ∨ i = .ffadd ∨ i ∈ qrOps := by simpa only [List.mem_cons] using hi
  · obtain ⟨_, -, ht⟩ := execLdw_next s t h
    exact ⟨_, ht⟩
  · obtain ⟨_, _, -, -, ht⟩ := execFfadd_next s t h
    exact ⟨_, ht⟩
  · obtain ⟨a, b, c, d, he⟩ := exec_qrOps hq
    obtain ⟨_, _, _, _, -, -, -, -, ht⟩ := qrMicro_next a b c d s t ((he s).symm.trans h)
    exact ⟨_, ht⟩

/-! ## The obligations of 41_quarter_round.md -/

/-- Settles O15: the inverse is the rotation by the rest of the word, and a rotation exchanges two runs of bits. -/
theorem rotationIsABijection : Obligations.RotationIsABijection := by
  unfold Obligations.RotationIsABijection
  intro n h1 h31
  refine ⟨fun _ => rfl, rotl32_bijective h1 h31, fun x => ?_⟩
  simpa only [List.countP_eq_length_filter] using countP_getLsbD_rotl32 x (Nat.lt_succ_of_le h31)

/-- Settles O16: QR is two halves, and each has an inverse. -/
theorem quarterRoundIsABijection : Obligations.QuarterRoundIsABijection := by
  unfold Obligations.QuarterRoundIsABijection
  refine ⟨?_, qr_bijective, by decide⟩
  rintro a b c d _ _ _ _ _ _ _ _ rfl rfl rfl rfl rfl rfl rfl rfl
  rfl

/-- Settles O34, from the one state that each of the ten can leave. -/
theorem frameOfWorkingBufferOps : Obligations.FrameOfWorkingBufferOps := by
  unfold Obligations.FrameOfWorkingBufferOps
  refine ⟨fun i s t hi h => ?_, qrMicro_keeps_other_words 0 4 8 12, qrMicro_keeps_other_words 1 5 9 13,
    qrMicro_keeps_other_words 2 6 10 14, qrMicro_keeps_other_words 3 7 11 15, qrMicro_keeps_other_words 0 5 10 15,
    qrMicro_keeps_other_words 1 6 11 12, qrMicro_keeps_other_words 2 7 8 13, qrMicro_keeps_other_words 3 4 9 14⟩
  obtain ⟨f, rfl⟩ := exec_workingBufferOp_next hi h
  exact ⟨⟨rfl, rfl, rfl⟩, fun _ => rfl, rfl, rfl, rfl, ⟨rfl, rfl, rfl⟩, ⟨rfl, rfl, rfl⟩, rfl, rfl⟩

/-- Settles O14, from the library's lemmas about `+` and `^^^`. -/
theorem addAndXor : Obligations.AddAndXor := by
  unfold Obligations.AddAndXor
  exact ⟨BitVec.toNat_add, fun _ _ _ => BitVec.getLsbD_xor, by decide, by decide⟩

/-- Settles O19: each runs `qrMicro` on its group, whose words are different. -/
theorem qrMicroOpsMixTheirGroups : Obligations.QrMicroOpsMixTheirGroups := by
  unfold Obligations.QrMicroOpsMixTheirGroups
  exact ⟨qrMicroOp_of_exec (decodeMicro_code .qrC0 rfl) (fun _ => rfl) (by decide),
    qrMicroOp_of_exec (decodeMicro_code .qrC1 rfl) (fun _ => rfl) (by decide),
    qrMicroOp_of_exec (decodeMicro_code .qrC2 rfl) (fun _ => rfl) (by decide),
    qrMicroOp_of_exec (decodeMicro_code .qrC3 rfl) (fun _ => rfl) (by decide),
    qrMicroOp_of_exec (decodeMicro_code .qrD0 rfl) (fun _ => rfl) (by decide),
    qrMicroOp_of_exec (decodeMicro_code .qrD1 rfl) (fun _ => rfl) (by decide),
    qrMicroOp_of_exec (decodeMicro_code .qrD2 rfl) (fun _ => rfl) (by decide),
    qrMicroOp_of_exec (decodeMicro_code .qrD3 rfl) (fun _ => rfl) (by decide)⟩

end Sys2Proof.Machine

/-! SUPPORT. The block function as QRs on groups of words, what the micro-ops at UPC 0..82 do from the start of REGEN,
and the obligations of 42_block_function.md. -/

namespace Sys2Proof.Machine

/-! ## QR on a group of words (42_block_function.md R142, R143) -/

/-- The four words that a QR reads and writes. -/
abbrev Group := Fin 16 × Fin 16 × Fin 16 × Fin 16

/-- The indices of a group. -/
def Group.indices : Group → List (Fin 16)
  | (a, b, c, d) => [a, b, c, d]

/-- The words of a group. -/
def wordsAt (x : Vector Word 16) : Group → Word × Word × Word × Word
  | (a, b, c, d) => (x[a], x[b], x[c], x[d])

/-- `qrAt` on a group. -/
def mixGroup : Group → Vector Word 16 → Vector Word 16
  | (a, b, c, d) => qrAt a b c d

/-- QR on one group after the other. -/
def mixGroups (gs : List Group) (x : Vector Word 16) : Vector Word 16 := gs.foldl (fun y g => mixGroup g y) x

/-- The groups of a column round (R142). -/
def columnGroups : List Group := [(0, 4, 8, 12), (1, 5, 9, 13), (2, 6, 10, 14), (3, 7, 11, 15)]

/-- The groups of a diagonal round (R143). -/
def diagonalGroups : List Group := [(0, 5, 10, 15), (1, 6, 11, 12), (2, 7, 8, 13), (3, 4, 9, 14)]

theorem columnRound_eq_mixGroups (x : Vector Word 16) : columnRound x = mixGroups columnGroups x := rfl

theorem diagonalRound_eq_mixGroups (x : Vector Word 16) : diagonalRound x = mixGroups diagonalGroups x := rfl

theorem doubleRound_eq_mixGroups (x : Vector Word 16) :
    doubleRound x = mixGroups (columnGroups ++ diagonalGroups) x := rfl

/-- No two groups share a word. -/
def SeparateGroups (gs : List Group) : Prop := gs.Pairwise fun g h => g.indices.Disjoint h.indices

theorem separateGroups_columnGroups : SeparateGroups columnGroups := by
  simp [SeparateGroups, columnGroups, Group.indices]

theorem separateGroups_diagonalGroups : SeparateGroups diagonalGroups := by
  simp [SeparateGroups, diagonalGroups, Group.indices]

/-- The words after a QR: the four it writes, and the others as before. -/
theorem qrAt_getElem (a b c d : Fin 16) (x : Vector Word 16) (j : Fin 16) :
    (qrAt a b c d x)[j] =
      if d = j then (qr x[a] x[b] x[c] x[d]).2.2.2 else if c = j then (qr x[a] x[b] x[c] x[d]).2.2.1
      else if b = j then (qr x[a] x[b] x[c] x[d]).2.1 else if a = j then (qr x[a] x[b] x[c] x[d]).1 else x[j] := by
  simp only [qrAt, Fin.getElem_fin, Vector.getElem_set, Fin.ext_iff]

theorem mixGroup_getElem_of_not_mem {g : Group} (x : Vector Word 16) {j : Fin 16} (hj : j ∉ g.indices) :
    (mixGroup g x)[j] = x[j] := by
  obtain ⟨a, b, c, d⟩ := g
  simp only [Group.indices, List.mem_cons, List.not_mem_nil, or_false, not_or] at hj
  obtain ⟨ha, hb, hc, hd⟩ := hj
  rw [mixGroup, qrAt_getElem, if_neg (Ne.symm hd), if_neg (Ne.symm hc), if_neg (Ne.symm hb), if_neg (Ne.symm ha)]

/-- The four words of a group are all different, so no write of the four hides another. -/
theorem wordsAt_mixGroup_self {g : Group} (hg : g.indices.Nodup) (x : Vector Word 16) :
    wordsAt (mixGroup g x) g = qr (wordsAt x g).1 (wordsAt x g).2.1 (wordsAt x g).2.2.1 (wordsAt x g).2.2.2 := by
  obtain ⟨a, b, c, d⟩ := g
  obtain ⟨⟨hab, hac, had⟩, ⟨hbc, hbd⟩, hcd⟩ : (a ≠ b ∧ a ≠ c ∧ a ≠ d) ∧ (b ≠ c ∧ b ≠ d) ∧ c ≠ d := by
    simpa [Group.indices] using hg
  simp only [wordsAt, mixGroup, qrAt_getElem, hab.symm, hac.symm, had.symm, hbc.symm, hbd.symm, hcd.symm, if_true,
    if_false]

theorem wordsAt_congr {g : Group} {x y : Vector Word 16} (h : ∀ k ∈ g.indices, x[k] = y[k]) :
    wordsAt x g = wordsAt y g := by
  obtain ⟨a, b, c, d⟩ := g
  simp only [Group.indices, List.forall_mem_cons] at h
  obtain ⟨ha, hb, hc, hd, -⟩ := h
  simp only [wordsAt, ha, hb, hc, hd]

/-- A QR on another group leaves the words of a group as they are. -/
theorem wordsAt_mixGroup_of_disjoint {g h : Group} (hd : g.indices.Disjoint h.indices) (x : Vector Word 16) :
    wordsAt (mixGroup h x) g = wordsAt x g :=
  wordsAt_congr fun _ hk => mixGroup_getElem_of_not_mem x (hd hk)

/-- A word after a QR depends on that word and on the words of the group only. -/
theorem mixGroup_getElem_congr {g : Group} {x y : Vector Word 16} {j : Fin 16} (hj : x[j] = y[j])
    (hg : wordsAt x g = wordsAt y g) : (mixGroup g x)[j] = (mixGroup g y)[j] := by
  obtain ⟨a, b, c, d⟩ := g
  simp only [wordsAt, Prod.mk.injEq] at hg
  obtain ⟨ha, hb, hc, hd⟩ := hg
  simp only [mixGroup, qrAt_getElem, ha, hb, hc, hd, hj]

/-- A word of `g`, or of neither group, is what the QR on `g` makes of it, on whichever side the QR on `h` stands. -/
theorem mixGroup_mixGroup_getElem {g h : Group} (hd : g.indices.Disjoint h.indices) (x : Vector Word 16) {j : Fin 16}
    (hj : j ∉ h.indices) : (mixGroup g (mixGroup h x))[j] = (mixGroup h (mixGroup g x))[j] :=
  calc (mixGroup g (mixGroup h x))[j]
      = (mixGroup g x)[j] :=
        mixGroup_getElem_congr (mixGroup_getElem_of_not_mem x hj) (wordsAt_mixGroup_of_disjoint hd x)
    _ = (mixGroup h (mixGroup g x))[j] := (mixGroup_getElem_of_not_mem _ hj).symm

/-- QRs on two groups that share no word commute. -/
theorem mixGroup_commute {g h : Group} (hd : g.indices.Disjoint h.indices) :
    Function.Commute (mixGroup g) (mixGroup h) := by
  intro x
  ext j hj : 1
  by_cases hh : (⟨j, hj⟩ : Fin 16) ∈ h.indices
  · exact (mixGroup_mixGroup_getElem hd.symm x fun hg => hd hg hh).symm
  · exact mixGroup_mixGroup_getElem hd x hh

/-- Within a round the order of the QRs is no matter (R150). -/
theorem foldl_perm_of_separateGroups {gs : List Group} (hs : SeparateGroups gs)
    {l : List (Vector Word 16 → Vector Word 16)} (hl : l.Perm (gs.map mixGroup)) (x : Vector Word 16) :
    l.foldl (fun y f => f y) x = mixGroups gs x := by
  have commute : ∀ f ∈ gs.map mixGroup, ∀ f' ∈ gs.map mixGroup, Function.Commute f f' := by
    have symm : Std.Symm (Function.Commute (α := Vector Word 16)) := ⟨fun _ _ h => h.symm⟩
    refine List.Pairwise.forall_of_forall (fun f _ => .refl f) (List.pairwise_map.mpr ?_)
    exact hs.imp mixGroup_commute
  calc l.foldl (fun y f => f y) x
      = (gs.map mixGroup).foldl (fun y f => f y) x :=
        hl.foldl_eq' (fun f hf f' hf' y => commute f' (hl.subset hf') f (hl.subset hf) y) x
    _ = mixGroups gs x := List.foldl_map

/-- Words outside all the groups stay as they are. -/
theorem wordsAt_mixGroups_of_disjoint {g : Group} {gs : List Group} (hd : ∀ h ∈ gs, g.indices.Disjoint h.indices)
    (x : Vector Word 16) : wordsAt (mixGroups gs x) g = wordsAt x g := by
  induction gs generalizing x with
  | nil => rfl
  | cons h gs ih =>
    rw [List.forall_mem_cons] at hd
    exact (ih hd.2 _).trans (wordsAt_mixGroup_of_disjoint hd.1 x)

/-- A round is QR on each of its groups. -/
theorem wordsAt_mixGroups {g : Group} {gs : List Group} (hs : SeparateGroups gs) (hg : g ∈ gs)
    (hn : g.indices.Nodup) (x : Vector Word 16) :
    wordsAt (mixGroups gs x) g = qr (wordsAt x g).1 (wordsAt x g).2.1 (wordsAt x g).2.2.1 (wordsAt x g).2.2.2 := by
  induction gs generalizing x with
  | nil => cases hg
  | cons h gs ih =>
    obtain ⟨hh, hs⟩ := List.pairwise_cons.mp hs
    obtain rfl | hg := List.mem_cons.mp hg
    · exact (wordsAt_mixGroups_of_disjoint hh _).trans (wordsAt_mixGroup_self hn x)
    · rw [← wordsAt_mixGroup_of_disjoint (hh g hg).symm x]
      exact ih hs hg (mixGroup h x)

/-! ## Ten double rounds and the serialization (R144, R145, R140) -/

theorem rounds_eq_iterate (n : Nat) (x : Vector Word 16) : rounds n x = doubleRound^[n] x := by
  induction n generalizing x with
  | zero => rfl
  | succ n ih => exact ih (doubleRound x)

/-- Byte `m` of word `k` stands at `4 k + m`. -/
theorem serialByte_eq (x : Vector Word 16) {j : Fin 64} {k : Fin 16} {m : Fin 4} (hj : j.val = 4 * k.val + m.val) :
    serialByte x j = byteOf m.val x[k] := by
  have hm : j.val % 4 = m.val := by omega
  have hk : j.val / 4 = k.val := by omega
  simp only [serialByte, hm, hk, Fin.getElem_fin]

theorem memRead_serialize_word (ks : Memory) (x : Vector Word 16) (k : Fin 16) (m : Fin 4) :
    memRead (serialize ks x) (4 * k.val + m.val) = some (byteOf m.val x[k]) := by
  rw [← serialByte_eq x (j := ⟨4 * k.val + m.val, by omega⟩) rfl]
  exact memRead_serialize ks x ⟨4 * k.val + m.val, by omega⟩

/-! ## LDW, FFADD and SER on written register files (R141, R146, R147) -/

theorem writeW_upcNext (f : Vector (Option Word) 16) (s : State) :
    (s.writeW f).upcNext = { s with w := f, upc := s.upc + 1 } := rfl

theorem writeKs_upcNext (m : Memory) (s : State) : (s.writeKs m).upcNext = { s with ks := m, upc := s.upc + 1 } := rfl

theorem sFile_of_sWritten {s : State} (h : s.sWritten) : ∃ x, s.allS = some x ∧ s.sFile = written x := by
  obtain ⟨x, hx⟩ := Option.isSome_iff_exists.mp ((allS_isSome s).mpr h)
  exact ⟨x, hx, (gather_eq_some _ _).mp hx⟩

theorem w_of_wWritten {s : State} (h : s.wWritten) : ∃ x, s.allW = some x ∧ s.w = written x := by
  obtain ⟨x, hx⟩ := Option.isSome_iff_exists.mp ((allW_isSome s).mpr h)
  exact ⟨x, hx, (gather_eq_some _ _).mp hx⟩

/-! ## The micro-program as instructions (30_encoding.md R82) -/

/-- The instructions of the ROM. -/
def microProgram : List Instr :=
  .ldw :: ((List.replicate Config.doubleRounds qrOps).flatten ++ [.ffadd, .ser, .ctrinc, .curclr])

theorem map_decodeMicro_romRounds (n : Nat) :
    (romRounds n).map decodeMicro = (List.replicate n qrOps).flatten.map .op := by
  induction n with
  | zero => rfl
  | succ n ih =>
    rw [romRounds, List.map_append, ih, decode_romDoubleRound, List.replicate_succ, List.flatten_cons, List.map_append]

theorem map_decodeMicro_rom : rom.map decodeMicro = microProgram.map .op := by
  simp only [rom, microProgram, List.map_append, List.map_cons, map_decodeMicro_romRounds]
  rfl

/-! ## Steps in REGEN (R149) -/

/-- REGEN goes on: no reset is asserted, and no model fault shows in the position and the cursor. -/
structure State.Regenerating (s : State) : Prop where
  noReset : s.resetLine = false
  noFault : s.controlFault = none
  regen : s.phase = .regen

/-- A step in REGEN executes the instruction of the micro-program at UPC. -/
theorem State.Regenerating.step_eq_exec {s : State} (h : s.Regenerating) {i : Instr}
    (hi : microProgram[s.upc.toNat]? = some i) : step s = exec i s := by
  have hrom : rom[s.upc.toNat]?.map decodeMicro = some (.op i) := by
    rw [← List.getElem?_map, map_decodeMicro_rom, List.getElem?_map, hi, Option.map_some]
  obtain ⟨code, hcode, hdecode⟩ := Option.map_eq_some_iff.mp hrom
  simp only [step, nextAction, h.noReset, h.noFault, h.regen, regenAction, hcode, hdecode, Bool.false_eq_true,
    if_false]

/-- `s` with `f` in W, at UPC `u`. -/
def State.mixing (s : State) (f : Vector (Option Word) 16) (u : Nat) : State :=
  { s with w := f, upc := BitVec.ofNat 7 u }

section

variable (s : State) (f : Vector (Option Word) 16) (u : Nat)

@[simp] theorem State.mixing_key : (s.mixing f u).key = s.key := rfl
@[simp] theorem State.mixing_ctr : (s.mixing f u).ctr = s.ctr := rfl
@[simp] theorem State.mixing_nonce : (s.mixing f u).nonce = s.nonce := rfl
@[simp] theorem State.mixing_ks : (s.mixing f u).ks = s.ks := rfl
@[simp] theorem State.mixing_cur : (s.mixing f u).cur = s.cur := rfl
@[simp] theorem State.mixing_initd : (s.mixing f u).initd = s.initd := rfl
@[simp] theorem State.mixing_phase : (s.mixing f u).phase = s.phase := rfl
@[simp] theorem State.mixing_op : (s.mixing f u).op = s.op := rfl
@[simp] theorem State.mixing_bn : (s.mixing f u).bn = s.bn := rfl
@[simp] theorem State.mixing_bi : (s.mixing f u).bi = s.bi := rfl
@[simp] theorem State.mixing_cmd : (s.mixing f u).cmd = s.cmd := rfl
@[simp] theorem State.mixing_rx : (s.mixing f u).rx = s.rx := rfl
@[simp] theorem State.mixing_rsp : (s.mixing f u).rsp = s.rsp := rfl
@[simp] theorem State.mixing_rspReady : (s.mixing f u).rspReady = s.rspReady := rfl
@[simp] theorem State.mixing_resetLine : (s.mixing f u).resetLine = s.resetLine := rfl
@[simp] theorem State.mixing_w : (s.mixing f u).w = f := rfl
@[simp] theorem State.mixing_upc : (s.mixing f u).upc = BitVec.ofNat 7 u := rfl

@[simp] theorem allS_mixing : (s.mixing f u).allS = s.allS :=
  congrArg gather (sFile_congr (s.mixing f u) s rfl rfl rfl)

theorem mixing_writeW (g : Vector (Option Word) 16) : (s.mixing f u).writeW g = s.mixing g u := rfl

theorem mixing_upcNext : (s.mixing f u).upcNext = s.mixing f (u + 1) := by
  have h : BitVec.ofNat 7 u + 1 = BitVec.ofNat 7 (u + 1) := (BitVec.ofNat_add u 1).symm
  simp only [State.upcNext, State.mixing, h]

end

theorem allW_mixing_written (s : State) (x : Vector Word 16) (u : Nat) : (s.mixing (written x) u).allW = some x := by
  rw [State.allW, State.mixing_w, gather_written]

theorem State.Regenerating.mixing {s : State} (h : s.Regenerating) (f : Vector (Option Word) 16) {u : Nat}
    (hu : u < 85) : (s.mixing f u).Regenerating where
  noReset := h.noReset
  noFault := by
    obtain ⟨hcur, -, hctx⟩ := (controlFault_none s).mp h.noFault
    have hu' : BitVec.ofNat 7 u ≤ 84#7 := by
      rw [BitVec.le_def, BitVec.toNat_ofNat, BitVec.toNat_ofNat]
      omega
    exact (controlFault_none _).mpr ⟨hcur, hu', hctx⟩
  regen := h.regen

theorem State.Regenerating.step_mixing {s : State} (h : s.Regenerating) (f : Vector (Option Word) 16) {u : Nat}
    {i : Instr} (hi : microProgram[u]? = some i) : step (s.mixing f u) = exec i (s.mixing f u) := by
  have hu : u < 85 := (List.getElem?_eq_some_iff.mp hi).1
  refine (h.mixing f hu).step_eq_exec ?_
  rwa [State.mixing_upc, BitVec.toNat_ofNat, Nat.mod_eq_of_lt (by omega)]

/-! ## The double rounds in REGEN -/

/-- The QR micro-op of a group (41_quarter_round.md R124). -/
def MixesGroup (i : Instr) (g : Group) : Prop := ∀ s, exec i s = qrMicro g.1 g.2.1 g.2.2.1 g.2.2.2 s

theorem qrOps_mix_groups : List.Forall₂ MixesGroup qrOps (columnGroups ++ diagonalGroups) := by
  simp only [qrOps, columnGroups, diagonalGroups, List.cons_append, List.nil_append, List.forall₂_cons]
  exact ⟨fun _ => rfl, fun _ => rfl, fun _ => rfl, fun _ => rfl, fun _ => rfl, fun _ => rfl, fun _ => rfl,
    fun _ => rfl, .nil⟩

/-- A run of QR micro-ops, one step each. -/
theorem State.Regenerating.runSteps_mixGroups {s : State} (h : s.Regenerating) {ops rest : List Instr}
    {gs : List Group} (hops : List.Forall₂ MixesGroup ops gs) {u : Nat} (hu : microProgram.drop u = ops ++ rest)
    (x : Vector Word 16) :
    runSteps ops.length (s.mixing (written x) u) = .next (s.mixing (written (mixGroups gs x)) (u + ops.length)) := by
  induction hops generalizing u x with
  | nil => rfl
  | @cons i g ops gs hi _ ih =>
    have hat : microProgram[u]? = some i := by rw [← List.head?_drop, hu]; rfl
    have hnext : microProgram.drop (u + 1) = ops ++ rest := by rw [← List.tail_drop, hu]; rfl
    have hstep : step (s.mixing (written x) u) = .next (s.mixing (written (mixGroup g x)) (u + 1)) := by
      rw [h.step_mixing _ hat, hi, qrMicro_written _ _ _ _ _ x (State.mixing_w _ _ _), mixing_writeW, mixing_upcNext]
      rfl
    rw [List.length_cons, runSteps_succ _ _ _ hstep, ih hnext, Nat.add_right_comm, Nat.add_assoc]
    rfl

theorem State.Regenerating.runSteps_rounds {s : State} (h : s.Regenerating) {n : Nat} {rest : List Instr} {u : Nat}
    (hu : microProgram.drop u = (List.replicate n qrOps).flatten ++ rest) (x : Vector Word 16) :
    runSteps (8 * n) (s.mixing (written x) u) = .next (s.mixing (written (rounds n x)) (u + 8 * n)) := by
  induction n generalizing u x with
  | zero => rfl
  | succ n ih =>
    rw [List.replicate_succ, List.flatten_cons, List.append_assoc] at hu
    have hnext : microProgram.drop (u + 8) = (List.replicate n qrOps).flatten ++ rest := by
      rw [← List.drop_drop, hu]
      rfl
    have hround := h.runSteps_mixGroups qrOps_mix_groups hu x
    rw [← doubleRound_eq_mixGroups, show qrOps.length = 8 from rfl] at hround
    rw [Nat.mul_succ, Nat.add_comm, runSteps_add _ _ _ _ hround, ih hnext, rounds, Nat.add_assoc]

/-! ## UPC 0 to 82 -/

/-- After the 83 steps W holds the words of BLOCK and KS their bytes; besides, only UPC has changed. -/
theorem State.Regenerating.runSteps_block {s : State} (h : s.Regenerating) (hu : s.upc = 0#7) {x : Vector Word 16}
    (hx : s.allS = some x) :
    runSteps 83 s =
      .next ((s.mixing (written (blockWords x)) 82).writeKs (serialize s.ks (blockWords x))).upcNext := by
  have ldw : step s = .next (s.mixing (written x) 1) := by
    have start : (s.writeW (written x)).upcNext = s.mixing (written x) 1 := by
      simp only [writeW_upcNext, State.mixing, hu]
      rfl
    rw [h.step_eq_exec (i := .ldw) (by rw [hu]; rfl), exec, execLdw_eq s x hx, start]
  have mix : runSteps 80 (s.mixing (written x) 1) = .next (s.mixing (written (rounds Config.doubleRounds x)) 81) :=
    h.runSteps_rounds (n := Config.doubleRounds) rfl x
  have ffadd : step (s.mixing (written (rounds Config.doubleRounds x)) 81) =
      .next (s.mixing (written (blockWords x)) 82) := by
    rw [h.step_mixing _ (i := .ffadd) rfl, exec, execFfadd_eq _ _ x (allW_mixing_written _ _ _) (by simp [hx]),
      mixing_writeW, mixing_upcNext, blockWords]
  have ser : step (s.mixing (written (blockWords x)) 82) =
      .next ((s.mixing (written (blockWords x)) 82).writeKs (serialize s.ks (blockWords x))).upcNext := by
    rw [h.step_mixing _ (i := .ser) rfl, exec, execSer_eq _ _ (allW_mixing_written _ _ _), State.mixing_ks]
  rw [runSteps_succ 82 _ _ ldw, runSteps_add 80 2 _ _ mix, runSteps_succ 1 _ _ ffadd, runSteps_succ 0 _ _ ser,
    runSteps_zero]

/-! ## What a step of REGEN can leave -/

/-- By its place a step of REGEN writes W and KS at most, or S[12], or CUR. -/
theorem StepEffect.regen_cases {s t : State} (h : StepEffect s t) (hp : s.phase = .regen) :
    (s.upc ≤ 82#7 ∧ ∃ f m, t = ((s.writeW f).writeKs m).upcNext) ∨
      (s.upc = 83#7 ∧ ∃ c, t = (s.writeCtr c).upcNext) ∨ (s.upc = 84#7 ∧ t = s.clearCur.regenEnd) := by
  have noXorb : ¬ s.issuesXorb := fun hx => by
    have := hx.phase
    simp [hp] at this
  cases h with
  | mix f _ upc _ next => exact .inl ⟨by bv_omega, f, s.ks, next⟩
  | ser x _ upc next => exact .inl ⟨by bv_omega, s.w, _, next⟩
  | ctrinc c _ upc _ next => exact .inr (.inl ⟨upc, _, next⟩)
  | curclr _ upc next => exact .inr (.inr ⟨upc, next⟩)
  | stays position _ =>
    obtain ready | issued := position
    · simp [hp] at ready
    · exact absurd issued noXorb
  | init _ _ _ _ ready => simp [hp] at ready
  | accept _ _ _ ready => simp [hp] at ready
  | regenStart loop => simp [hp] at loop
  | xorb _ _ _ _ _ issued => exact absurd issued noXorb

/-- REGEN is entered where the LOOP test fires only. -/
theorem StepEffect.regen_of_next {s t : State} (h : StepEffect s t) (ht : t.phase = .regen) :
    s.phase = .regen ∨ (s.phase = .loop ∧ t = s.regenStart) := by
  cases h with
  | regenStart loop _ next => exact .inr ⟨loop, next⟩
  | stays _ same =>
    obtain ⟨_, _, _, rfl⟩ := same
    exact .inl ht
  | init _ _ _ _ ready _ _ _ next => simp [next, ready] at ht
  | accept _ _ _ _ _ _ _ next => simp [next] at ht
  | xorb n i _ _ rest _ _ _ _ _ _ _ next =>
    subst next
    exact absurd ht (xorbDone_phase_ne_regen n i rest s)
  | mix _ regen => exact .inl regen
  | ser _ regen => exact .inl regen
  | ctrinc _ regen => exact .inl regen
  | curclr regen => exact .inl regen

/-! ## The obligations of 42_block_function.md -/

/-- Settles O54: LDW, ten double rounds, FFADD and SER, one run after the other. -/
theorem ksIsBlockAfterSer : Obligations.KsIsBlockAfterSer := by
  unfold Obligations.KsIsBlockAfterSer
  intro s x hr hf hp hu hx
  have run := State.Regenerating.runSteps_block ⟨hr, hf, hp⟩ hu (allS_of_readS s x hx)
  refine ⟨_, run, fun j => ?_, ?_⟩
  · rw [State.upcNext_ks, State.writeKs_ks, memRead_serialize]
    simp [block]
  · simp [State.sameS, State.sameStreams, hp]

/-- Settles O17: QRs on separate groups commute; the words 1, 0, ..., 0 tell the two orders of the rounds apart. -/
theorem orderWithinARoundIsImmaterial : Obligations.OrderWithinARoundIsImmaterial := by
  unfold Obligations.OrderWithinARoundIsImmaterial
  refine ⟨fun l x hl => ?_, fun l x hl => ?_, #v[1, 0, 0, 0, 0, 0, 0, 0, 0, 0, 0, 0, 0, 0, 0, 0], by decide⟩
  · exact foldl_perm_of_separateGroups separateGroups_columnGroups hl x
  · exact foldl_perm_of_separateGroups separateGroups_diagonalGroups hl x

/-- Settles O18: each round is QR on its separate groups; the last clause is the computation of one block. -/
theorem blockFunctionAsStated : Obligations.BlockFunctionAsStated := by
  unfold Obligations.BlockFunctionAsStated
  refine ⟨?_, ?_, fun _ => rfl, fun s k m j hj => ?_, by decide +kernel⟩
  · rintro x _ rfl
    have column {g : Group} (hg : g ∈ columnGroups) (hn : g.indices.Nodup) :=
      wordsAt_mixGroups separateGroups_columnGroups hg hn x
    exact ⟨column (g := (0, 4, 8, 12)) (by decide) (by decide), column (g := (1, 5, 9, 13)) (by decide) (by decide),
      column (g := (2, 6, 10, 14)) (by decide) (by decide), column (g := (3, 7, 11, 15)) (by decide) (by decide)⟩
  · rintro x _ rfl
    have diagonal {g : Group} (hg : g ∈ diagonalGroups) (hn : g.indices.Nodup) :=
      wordsAt_mixGroups separateGroups_diagonalGroups hg hn x
    exact ⟨diagonal (g := (0, 5, 10, 15)) (by decide) (by decide),
      diagonal (g := (1, 6, 11, 12)) (by decide) (by decide), diagonal (g := (2, 7, 8, 13)) (by decide) (by decide),
      diagonal (g := (3, 4, 9, 14)) (by decide) (by decide)⟩
  · rw [← rounds_eq_iterate]
    simp [block, serialByte_eq _ hj, blockWords, feedForward]

/-- Settles O22, from what serialization leaves in KS. -/
theorem serSerializesLittleEndian : Obligations.SerSerializesLittleEndian := by
  unfold Obligations.SerSerializesLittleEndian
  refine ⟨decodeMicro_code .ser rfl, by decide, fun s hw => ?_⟩
  obtain ⟨y, hy, hw⟩ := w_of_wWritten hw
  have word {k : Fin 16} {x : Word} (hx : s.w[k] = some x) : y[k] = x := by simpa [hw] using hx
  refine ⟨serialize s.ks y, by rw [exec, execSer_eq s y hy, writeKs_upcNext], fun k m x hx => ?_, fun k x hx => ?_⟩
  · rw [memRead_serialize_word, word hx]
  · have byte := memRead_serialize_word s.ks y k
    exact ⟨_, _, _, _, byte 0, byte 1, byte 2, byte 3, word hx ▸ le32_byteOf _⟩

/-- Settles O35, from the one state that each of the three can leave. -/
theorem frameOfSerCtrincCurclr : Obligations.FrameOfSerCtrincCurclr := by
  unfold Obligations.FrameOfSerCtrincCurclr
  refine ⟨fun s t h => ?_, fun s t h => ?_, fun s t h => ?_⟩
  · obtain ⟨x, -, rfl⟩ := execSer_next s t h
    exact ⟨⟨rfl, rfl, rfl⟩, rfl, fun a ha => by rw [memRead_outside _ a ha, memRead_outside _ a ha], rfl, rfl, rfl,
      ⟨rfl, rfl, rfl⟩, ⟨rfl, rfl, rfl⟩, rfl, rfl⟩
  · obtain ⟨c, -, rfl⟩ := execCtrinc_next s t h
    exact ⟨rfl, rfl, rfl, fun _ => rfl, rfl, rfl, rfl, ⟨rfl, rfl, rfl⟩, ⟨rfl, rfl, rfl⟩, rfl, rfl⟩
  · obtain rfl := Host.Outcome.next.inj h
    exact ⟨⟨rfl, rfl, rfl⟩, rfl, fun _ => rfl, rfl, ⟨rfl, rfl, rfl⟩, ⟨rfl, rfl, rfl⟩, rfl, rfl⟩

/-- Settles O44, by the place of the step in REGEN, and from the one way into REGEN. -/
theorem regenSequencerControl : Obligations.RegenSequencerControl := by
  unfold Obligations.RegenSequencerControl
  refine ⟨fun s t hr hp h => ?_, fun s t h ht => ?_⟩
  · obtain ⟨hu, f, m, rfl⟩ | ⟨hu, c, rfl⟩ | ⟨hu, rfl⟩ := (stepEffect_of_step hr h).regen_cases hp
    · exact ⟨⟨rfl, rfl, rfl⟩, ⟨rfl, rfl, rfl⟩, fun _ => ⟨hp, rfl⟩, fun h84 => absurd h84 (by bv_omega)⟩
    · exact ⟨⟨rfl, rfl, rfl⟩, ⟨rfl, rfl, rfl⟩, fun _ => ⟨hp, rfl⟩, fun h84 => absurd h84 (by bv_omega)⟩
    · exact ⟨⟨rfl, rfl, rfl⟩, ⟨rfl, rfl, rfl⟩, fun h84 => absurd hu h84, fun _ => ⟨rfl, rfl⟩⟩
  · cases hr : s.resetLine with
    | true =>
      rw [step_of_reset hr, Host.Outcome.next.injEq] at h
      simp [← h] at ht
    | false =>
      refine ((stepEffect_of_step hr h).regen_of_next ht).imp_right ?_
      rintro ⟨hp, rfl⟩
      exact ⟨hp, rfl⟩

/-- Settles O45: up to UPC 82 only W and KS are written. -/
theorem blockFunctionLeavesCounterAndCursor : Obligations.BlockFunctionLeavesCounterAndCursor := by
  unfold Obligations.BlockFunctionLeavesCounterAndCursor
  intro s t hr hp hu h
  obtain ⟨-, f, m, rfl⟩ | ⟨hu', -⟩ | ⟨hu', -⟩ := (stepEffect_of_step hr h).regen_cases hp
  · exact ⟨⟨rfl, rfl, rfl⟩, rfl, rfl, rfl, ⟨rfl, rfl, rfl⟩, ⟨rfl, rfl, rfl⟩, rfl, rfl⟩
  · exact absurd hu (by bv_omega)
  · exact absurd hu (by bv_omega)

/-- Settles O20: W becomes the words of S. -/
theorem ldwCopiesState : Obligations.LdwCopiesState := by
  unfold Obligations.LdwCopiesState
  refine ⟨decodeMicro_code .ldw rfl, rfl, fun s hs => ?_⟩
  obtain ⟨x, hx, hfile⟩ := sFile_of_sWritten hs
  exact ⟨written x, by rw [exec, execLdw_eq s x hx, writeW_upcNext], fun i => by rw [State.readS, hfile]⟩

/-- Settles O21: W becomes the feed-forward of W and S. -/
theorem ffaddAddsState : Obligations.FfaddAddsState := by
  unfold Obligations.FfaddAddsState
  refine ⟨decodeMicro_code .ffadd rfl, by decide, fun s hs hw => ?_⟩
  obtain ⟨x, hx, hw⟩ := w_of_wWritten hw
  obtain ⟨y, hy, hfile⟩ := sFile_of_sWritten hs
  refine ⟨written (feedForward x y), by rw [exec, execFfadd_eq s x y hx hy, writeW_upcNext], fun i a b ha hb => ?_⟩
  obtain rfl : x[i] = a := by simpa [hw] using ha
  obtain rfl : y[i] = b := by simpa [State.readS, hfile] using hb
  simp [feedForward]

end Sys2Proof.Machine

/-! SUPPORT. What a regeneration leaves, how one data byte is processed with or without one, and how commands run to
their end; the obligations of 43_stream_updater.md. -/

namespace Sys2Proof.Machine

/-! ## The step in each phase (43_stream_updater.md R172, 42_block_function.md R149) -/

section

variable {s : State} (hr : s.resetLine = false) (hf : s.controlFault = none)

include hr hf

theorem step_ready_incomplete (hp : s.phase = .ready) (hd : decodeCommand s.stream = .incomplete) :
    step s = .next (s.take s.stream.length) := by
  simp [step, nextAction, hr, hf, hp, readyAction, hd]

theorem step_ready_illegal (hp : s.phase = .ready) {op : Byte} (hd : decodeCommand s.stream = .illegal op) :
    step s = raise .illegalCommand (s.take 1) := by
  simp [step, nextAction, hr, hf, hp, readyAction, hd]

theorem step_loop_fires (hp : s.phase = .loop) (hc : s.cur = 0#7 ∨ s.cur = 64#7) : step s = .next s.regenStart := by
  simp [step, nextAction, hr, hf, hp, loopAction, Config.curMax, hc]

theorem step_issuesXorb (hx : s.issuesXorb) : step s = exec .xorb s := by
  obtain ⟨hp, hc⟩ | hp := hx
  · simp [step, nextAction, hr, hf, hp, loopAction, Config.curMax, hc]
  · simp [step, nextAction, hr, hf, hp]

theorem step_regen (hp : s.phase = .regen) {code : Byte} {i : Instr} (hc : rom[s.upc.toNat]? = some code)
    (hd : decodeMicro code = .op i) : step s = exec i s := by
  simp [step, nextAction, hr, hf, hp, regenAction, hc, hd]

end

/-! ## XORB, ENCRYPT and DECRYPT where nothing holds them up (R176, R170, R171) -/

theorem exec_xorb_processes {s : State} {n i : Word} {d k : Byte} {rest : List Byte} (hctx : s.context = .ok (n, i))
    (hcur : s.cur ≤ 63#7) (hs : s.stream = d :: rest) (hk : memRead s.ks s.cur.toNat = some k)
    (hready : s.rspReady = true) : exec .xorb s = .next ((s.xorbDone n i rest).send (d ^^^ k)) := by
  rw [exec, execXorb_eq s n i d k rest hctx hcur hs hk]
  exact respond_ready _ _ _ hready

theorem exec_xorb_waits {s : State} {n i : Word} (hctx : s.context = .ok (n, i)) (hcur : s.cur ≤ 63#7)
    (hs : s.stream = []) : exec .xorb s = .next s := by
  simp only [exec, execXorb, hctx, BitVec.not_lt.mpr hcur, hs, if_false]

theorem streamCommand_accepted {s : State} {n : Word} (hi : s.initd = true) (hn : n ≠ 0) (hready : s.rspReady = true)
    (opcode : Byte) : streamCommand opcode n s = .next ((s.accept opcode n).consumed.send statusOk) := by
  rw [streamCommand_eq, if_neg (by simp [hi]), if_neg hn, if_pos hready]

/-! ## The obligations of one step -/

/-- Settles O39, from the step in each phase. -/
theorem stepRunsSequencedMicroOp : Obligations.StepRunsSequencedMicroOp := by
  unfold Obligations.StepRunsSequencedMicroOp
  intro s hr hf
  exact ⟨fun _ _ hp => step_regen hr hf hp, fun hp => step_issuesXorb hr hf (.inr hp),
    fun hp h0 h64 => step_issuesXorb hr hf (.inl ⟨hp, not_or.mpr ⟨h0, h64⟩⟩), step_loop_fires hr hf⟩

/-- Settles O23, from what CTRINC writes. -/
theorem ctrincIncrementsCounter : Obligations.CtrincIncrementsCounter := by
  unfold Obligations.CtrincIncrementsCounter
  refine ⟨decodeMicro_code .ctrinc rfl, by decide, fun s c hc => ⟨add32 c 1, ?_, BitVec.toNat_add c 1, ?_⟩⟩
  · rw [exec, execCtrinc_eq s c hc]
    rfl
  · rintro rfl
    decide

/-- Settles O24: CURCLR is this one update. -/
theorem curclrClearsCursor : Obligations.CurclrClearsCursor := by
  unfold Obligations.CurclrClearsCursor
  exact ⟨decodeMicro_code .curclr rfl, by decide, fun _ => rfl⟩

/-- Settles O25, from the two outcomes of XORB for a host that takes bytes. -/
theorem xorbCombinesOneByte : Obligations.XorbCombinesOneByte := by
  unfold Obligations.XorbCombinesOneByte
  refine ⟨decodeMicro_code .xorb rfl, xorb_not_mem_rom, fun s n i d k rest hn hi hlt hcur hs hk hready => ?_,
    fun s n i hn hi hlt hcur hs => ?_⟩
  · exact exec_xorb_processes ((context_ok s n i).mpr ⟨hn, hi, hlt⟩) hcur hs hk hready
  · exact exec_xorb_waits ((context_ok s n i).mpr ⟨hn, hi, hlt⟩) hcur hs

/-- Settles O30, from the acceptance that ENCRYPT and DECRYPT share. -/
theorem streamCommandsAccepted : Obligations.StreamCommandsAccepted := by
  unfold Obligations.StreamCommandsAccepted
  exact fun _ _ hi hn hready =>
    ⟨streamCommand_accepted hi hn hready 0x02#8, streamCommand_accepted hi hn hready 0x03#8⟩

/-- Settles O36, by cases of the outcome of XORB. -/
theorem frameOfXorb : Obligations.FrameOfXorb := by
  unfold Obligations.FrameOfXorb
  intro s t h
  obtain ⟨_, _, _, rfl⟩ | ⟨n, i, d, rest, k, -, -, -, -, -, -, rfl⟩ := execXorb_next_cases h
  all_goals exact ⟨⟨rfl, rfl, rfl⟩, rfl, fun _ => rfl, rfl, rfl, rfl, rfl, rfl, rfl⟩

/-! ## What a regeneration leaves (R173) -/

/-- What the 85 steps of REGEN leave of a state whose S is `x`. -/
def State.regenerated (x : Vector Word 16) (s : State) : State :=
  (((s.writeW (written (blockWords x))).writeKs (serialize s.ks (blockWords x))).writeCtr
    (add32 x[12] 1)).clearCur.regenEnd

theorem readS_ctr (s : State) : s.readS 12 = s.ctr := rfl

theorem ctr_of_allS {s : State} {x : Vector Word 16} (hx : s.allS = some x) : s.ctr = some x[12] := by
  rw [← readS_ctr, State.readS, (gather_eq_some _ _).mp hx]
  exact written_getElem x 12 _

theorem State.Regenerating.writeKs {s : State} (h : s.Regenerating) (m : Memory) : (s.writeKs m).Regenerating :=
  ⟨h.noReset, h.noFault, h.regen⟩

theorem State.Regenerating.writeCtr {s : State} (h : s.Regenerating) (c : Word) : (s.writeCtr c).Regenerating :=
  ⟨h.noReset, h.noFault, h.regen⟩

/-- CTRINC and CURCLR follow the block function. -/
theorem State.Regenerating.runSteps_regenerated {s : State} (h : s.Regenerating) (hu : s.upc = 0#7)
    {x : Vector Word 16} (hx : s.allS = some x) : runSteps 85 s = .next (s.regenerated x) := by
  have block := h.runSteps_block hu hx
  unfold State.regenerated
  generalize serialize s.ks (blockWords x) = m at block ⊢
  generalize written (blockWords x) = f at block ⊢
  have serialized : ((s.mixing f 82).writeKs m).upcNext = (s.writeKs m).mixing f 83 := mixing_upcNext (s.writeKs m) f 82
  have ctrinc : step ((s.writeKs m).mixing f 83) = .next (((s.writeKs m).writeCtr (add32 x[12] 1)).mixing f 84) := by
    have hctr : ((s.writeKs m).mixing f 83).ctr = some x[12] := ctr_of_allS hx
    rw [(h.writeKs m).step_mixing f (i := .ctrinc) rfl, exec, execCtrinc_eq _ _ hctr]
    exact congrArg _ (mixing_upcNext ((s.writeKs m).writeCtr (add32 x[12] 1)) f 83)
  have curclr : step (((s.writeKs m).writeCtr (add32 x[12] 1)).mixing f 84) =
      .next (((s.writeKs m).writeCtr (add32 x[12] 1)).mixing f 84).clearCur.regenEnd :=
    ((h.writeKs m).writeCtr _).step_mixing f (i := .curclr) rfl
  rw [runSteps_add 83 2 _ _ block, serialized, runSteps_succ 1 _ _ ctrinc, runSteps_succ 0 _ _ curclr]
  rfl

theorem memRead_regenerated (x : Vector Word 16) (s : State) (j : Fin 64) :
    memRead (s.regenerated x).ks j.val = some (block x)[j] := by
  simp [State.regenerated, memRead_serialize, block]

/-- Settles O55: the 85 steps leave `State.regenerated`. -/
theorem regenNetEffect : Obligations.RegenNetEffect := by
  unfold Obligations.RegenNetEffect
  intro s x hr hf hp hu hx
  have run := State.Regenerating.runSteps_regenerated ⟨hr, hf, hp⟩ hu (allS_of_readS s x hx)
  refine ⟨_, run, memRead_regenerated x s, fun i => by simp [State.regenerated],
    by simp [State.regenerated, readS_ctr], ?_⟩
  simp [State.regenerated, State.sameContext, State.sameStreams, State.sameInputs]

/-! ## OP has no effect (R171) -/

/-- `s` with another opcode recorded in OP. -/
def State.withOp (o : Option Byte) (s : State) : State := { s with op := o }

/-- Where the first outcome is a next state, the second is that state but for OP. -/
def SameButOp (r r' : Result) : Prop := ∀ t, r = .next t → ∃ o, r' = .next (t.withOp o)

theorem SameButOp.next (t : State) (o : Option Byte) : SameButOp (.next t) (.next (t.withOp o)) := by
  rintro _ ⟨⟩
  exact ⟨o, rfl⟩

theorem respond_withOp (v : Byte) (waiting done : State) (o o' : Option Byte) :
    SameButOp (respond v waiting done) (respond v (waiting.withOp o) (done.withOp o')) := by
  cases hw : waiting.rspReady with
  | true =>
    rw [respond_ready _ _ _ hw, respond_ready _ (waiting.withOp o) _ hw]
    exact .next (done.send v) o'
  | false =>
    rw [respond_waits _ _ _ hw, respond_waits _ (waiting.withOp o) _ hw]
    exact .next waiting o

theorem raise_withOp (e : ErrorKind) (s : State) (o : Option Byte) : SameButOp (raise e s) (raise e (s.withOp o)) :=
  respond_withOp e.code s s.consumed o o

theorem execInit_withOp (key nonce : List Byte) (ctr : Word) (s : State) (o : Option Byte) :
    SameButOp (execInit key nonce ctr s) (execInit key nonce ctr (s.withOp o)) := by
  unfold execInit
  split_ifs
  · exact raise_withOp _ s o
  · exact respond_withOp _ s _ o o

theorem discardThenRaise_withOp (n : Nat) (e : ErrorKind) (s : State) (o : Option Byte) :
    SameButOp (discardThenRaise n e s) (discardThenRaise n e (s.withOp o)) := by
  by_cases hlen : s.cmd.length < n
  · rw [discardThenRaise, if_pos hlen, discardThenRaise, if_pos (c := (s.withOp o).cmd.length < n) hlen]
    exact .next _ o
  · rw [discardThenRaise, if_neg hlen, discardThenRaise, if_neg (c := (s.withOp o).cmd.length < n) hlen]
    exact raise_withOp e _ o

theorem streamCommand_withOp (opcode : Byte) (n : Word) (s : State) (o : Option Byte) :
    SameButOp (streamCommand opcode n s) (streamCommand opcode n (s.withOp o)) := by
  unfold streamCommand
  by_cases hi : s.initd = false
  · rw [if_pos hi, if_pos (c := (s.withOp o).initd = false) hi]
    exact discardThenRaise_withOp _ _ s o
  rw [if_neg hi, if_neg (c := (s.withOp o).initd = false) hi]
  split_ifs
  · exact raise_withOp _ s o
  · exact respond_withOp _ s _ o (some opcode)

theorem execXorb_withOp (s : State) (o : Option Byte) : SameButOp (execXorb s) (execXorb (s.withOp o)) := by
  intro t h
  obtain ⟨n, i, hctx, hcur, ⟨hs, rfl⟩ | ⟨d, rest, k, hs, hk, h⟩⟩ := execXorb_next s t h
  · exact ⟨o, exec_xorb_waits (s := t.withOp o) hctx hcur hs⟩
  · rw [execXorb_eq (s.withOp o) n i d k rest hctx hcur hs hk]
    exact respond_withOp _ _ _ o o t h

theorem qrMicro_withOp (a b c d : Fin 16) (s : State) (o : Option Byte) :
    SameButOp (qrMicro a b c d s) (qrMicro a b c d (s.withOp o)) := by
  intro t h
  obtain ⟨wa, wb, wc, wd, ha, hb, hc, hd, rfl⟩ := qrMicro_next a b c d s t h
  exact ⟨o, qrMicro_eq a b c d (s.withOp o) wa wb wc wd ha hb hc hd⟩

/-- No instruction reads OP. -/
theorem exec_withOp (i : Instr) (s : State) (o : Option Byte) : SameButOp (exec i s) (exec i (s.withOp o)) := by
  by_cases hq : i ∈ qrOps
  · obtain ⟨a, b, c, d, he⟩ := exec_qrOps hq
    rw [he, he]
    exact qrMicro_withOp a b c d s o
  intro t h
  cases i with
  | init key nonce ctr => exact execInit_withOp key nonce ctr s o t h
  | encrypt n => exact streamCommand_withOp _ n s o t h
  | decrypt n => exact streamCommand_withOp _ n s o t h
  | ldw =>
    obtain ⟨x, hx, rfl⟩ := execLdw_next s t h
    exact ⟨o, execLdw_eq (s.withOp o) x hx⟩
  | ffadd =>
    obtain ⟨x, y, hx, hy, rfl⟩ := execFfadd_next s t h
    exact ⟨o, execFfadd_eq (s.withOp o) x y hx hy⟩
  | ser =>
    obtain ⟨x, hx, rfl⟩ := execSer_next s t h
    exact ⟨o, execSer_eq (s.withOp o) x hx⟩
  | ctrinc =>
    obtain ⟨c, hc, rfl⟩ := execCtrinc_next s t h
    exact ⟨o, execCtrinc_eq (s.withOp o) c hc⟩
  | curclr =>
    obtain rfl := Host.Outcome.next.inj h
    exact ⟨o, rfl⟩
  | xorb => exact execXorb_withOp s o t h
  -- The QR micro-ops are above.
  | _ => simp [qrOps] at hq

/-- No step reads OP. -/
theorem step_withOp (s : State) (o : Option Byte) : SameButOp (step s) (step (s.withOp o)) := by
  intro t h
  obtain ⟨hr, rfl⟩ | ⟨hr, hf, h⟩ := step_next_cases s t h
  · exact ⟨none, step_of_reset (s := s.withOp o) hr⟩
  obtain ⟨hp, hd, rfl⟩ | ⟨hp, ⟨op, hd⟩, h⟩ | ⟨hp, i, len, hd, h⟩ | ⟨hp, hc, rfl⟩ | ⟨hp, hc, h⟩ |
    ⟨hp, code, i, hc, hd, h⟩ | ⟨hp, h⟩ := h
  · exact ⟨o, step_ready_incomplete (s := s.withOp o) hr hf hp hd⟩
  · rw [step_ready_illegal (s := s.withOp o) hr hf hp hd]
    exact raise_withOp _ (s.take 1) o t h
  · rw [stepRunsDecodedCommand (s.withOp o) i len hr hf hp hd]
    exact exec_withOp i (s.take len) o t h
  · exact ⟨o, step_loop_fires (s := s.withOp o) hr hf hp hc⟩
  · rw [step_issuesXorb (s := s.withOp o) hr hf (.inl ⟨hp, hc⟩)]
    exact exec_withOp .xorb s o t h
  · rw [step_regen (s := s.withOp o) hr hf hp hc hd]
    exact exec_withOp i s o t h
  · rw [step_issuesXorb (s := s.withOp o) hr hf (.inr hp)]
    exact exec_withOp .xorb s o t h

/-- Rejected, or waiting to send their status, ENCRYPT and DECRYPT answer the same state, and keep OP. -/
theorem streamCommand_not_accepted {s : State} {n : Word} (h : ¬ (s.initd = true ∧ n ≠ 0 ∧ s.rspReady = true)) :
    ∃ t, t.op = s.op ∧ ∀ opcode, streamCommand opcode n s = .next t := by
  by_cases hi : s.initd = false
  · have answer := discardThenRaise_eq n.toNat .notInitialized s
    refine ⟨_, ?_, fun opcode => by rw [streamCommand_eq, if_pos hi, answer]⟩
    split_ifs <;> rfl
  by_cases hn : n = 0
  · refine ⟨_, ?_, fun opcode => by rw [streamCommand_eq, if_neg hi, if_pos hn, raise_eq]⟩
    split_ifs <;> rfl
  · have hready : ¬ s.rspReady = true := fun hready => h ⟨by simpa using hi, hn, hready⟩
    exact ⟨s, rfl, fun opcode => by rw [streamCommand_eq, if_neg hi, if_neg hn, if_neg hready]⟩

/-- Settles O33: on acceptance OP alone tells the two apart, and no step reads OP. -/
theorem decryptIsEncryptButForOp : Obligations.DecryptIsEncryptButForOp := by
  unfold Obligations.DecryptIsEncryptButForOp
  refine ⟨decodeCommand_decrypt_fields, fun s n => ?_, fun s t o => step_withOp s o t⟩
  by_cases h : s.initd = true ∧ n ≠ 0#32 ∧ s.rspReady = true
  · obtain ⟨hi, hn, hready⟩ := h
    refine ⟨_, streamCommand_accepted hi hn hready 0x02#8, ?_⟩
    rw [if_pos ⟨hi, hn, hready⟩]
    exact ⟨rfl, streamCommand_accepted hi hn hready 0x03#8⟩
  · obtain ⟨t, hop, ht⟩ := streamCommand_not_accepted h
    refine ⟨t, ht 0x02#8, ?_⟩
    rw [if_neg h]
    exact ⟨hop, ht 0x03#8⟩

/-! ## One data byte of a running command (R172, R176) -/

/-- Nothing holds the block up before data byte `i` of a command of `n` bytes, or past its last byte, and `bs` stands on
the command stream. -/
structure State.InCommand (n i : Word) (bs : List Byte) (s : State) : Prop where
  phase : s.phase = if i = n then .ready else .loop
  upc : s.upc = 0#7
  bn : s.bn = some n
  bi : s.bi = some i
  rx : s.rx = []
  cmd : s.cmd = bs
  free : s.free

/-- The state in which XORB takes a data byte, where S is `x`: REGEN has run if the LOOP test fires. -/
def State.refilled (x : Vector Word 16) (s : State) : State :=
  if s.cur = 0#7 ∨ s.cur = 64#7 then s.regenerated x else s

/-- The state after a data byte, for which the block has sent `v`. -/
def State.afterByte (x : Vector Word 16) (n i : Word) (rest : List Byte) (v : Byte) (s : State) : State :=
  ((s.refilled x).xorbDone n i rest).send v

/-- What the LOOP test and REGEN leave as it was. -/
theorem refilled_frame (x : Vector Word 16) (s : State) :
    (s.refilled x).initd = s.initd ∧ s.sameContext (s.refilled x) ∧ s.sameStreams (s.refilled x) ∧
      s.sameInputs (s.refilled x) := by
  unfold State.refilled
  split_ifs <;> simp [State.regenerated, State.sameContext, State.sameStreams, State.sameInputs]

theorem refilled_upc {s : State} (h : s.upc = 0#7) (x : Vector Word 16) : (s.refilled x).upc = 0#7 := by
  unfold State.refilled
  split_ifs <;> simp [State.regenerated, h]

theorem afterByte_rsp (x : Vector Word 16) (n i : Word) (rest : List Byte) (v : Byte) (s : State) :
    (s.afterByte x n i rest v).rsp = s.rsp ++ [v] := by
  obtain ⟨-, -, ⟨-, -, hrsp⟩, -⟩ := refilled_frame x s
  simp [State.afterByte, hrsp]

theorem afterByte_cur (x : Vector Word 16) (n i : Word) (rest : List Byte) (v : Byte) (s : State) :
    (s.afterByte x n i rest v).cur = (s.refilled x).cur + 1 := rfl

section

variable {n i : Word} {s : State}

theorem State.InCommand.phase_of_lt {bs : List Byte} (h : s.InCommand n i bs) (hlt : i < n) : s.phase = .loop := by
  have hne : i ≠ n := by bv_omega
  rw [h.phase, if_neg hne]

theorem State.InCommand.noFault {bs : List Byte} (h : s.InCommand n i bs) (hlt : i < n) (hcur : s.cur ≤ 64#7) :
    s.controlFault = none :=
  (controlFault_none s).mpr ⟨hcur, by rw [h.upc]; decide, fun _ => ⟨n, i, h.bn, h.bi, hlt⟩⟩

/-- The LOOP test and, where it fires, the 85 steps of REGEN. -/
theorem State.InCommand.runSteps_refilled {bs : List Byte} (h : s.InCommand n i bs) (hlt : i < n)
    (hcur : s.cur ≤ 64#7) {x : Vector Word 16} (hx : s.allS = some x) :
    runSteps (if s.cur = 0#7 ∨ s.cur = 64#7 then 86 else 0) s = .next (s.refilled x) ∧
      (s.refilled x).issuesXorb := by
  have hp := h.phase_of_lt hlt
  have hr := h.free.1
  have hf := h.noFault hlt hcur
  unfold State.refilled
  split_ifs with hdue
  · have started : s.regenStart.Regenerating :=
      ⟨hr, (controlFault_none _).mpr ⟨hcur, by simp, fun _ => ⟨n, i, h.bn, h.bi, hlt⟩⟩, rfl⟩
    rw [runSteps_succ 85 _ _ (step_loop_fires hr hf hp hdue), started.runSteps_regenerated rfl (x := x) hx]
    exact ⟨rfl, .inr rfl⟩
  · exact ⟨rfl, .inl ⟨hp, hdue⟩⟩

/-- A data byte takes one step, and 86 more where a regeneration is due. -/
theorem State.InCommand.runSteps_afterByte {d : Byte} {rest : List Byte} (h : s.InCommand n i (d :: rest))
    (hlt : i < n) (hcur : s.cur ≤ 64#7) {x : Vector Word 16} (hx : s.allS = some x) {k : Byte}
    (hk : memRead (s.refilled x).ks (s.refilled x).cur.toNat = some k) :
    runSteps ((if s.cur = 0#7 ∨ s.cur = 64#7 then 86 else 0) + 1) s = .next (s.afterByte x n i rest (d ^^^ k)) := by
  obtain ⟨refill, issued⟩ := h.runSteps_refilled hlt hcur hx
  obtain ⟨-, ⟨-, hbn, hbi⟩, ⟨hcmd, hrx, -⟩, hready, hreset⟩ := refilled_frame x s
  have hcur63 : (s.refilled x).cur ≤ 63#7 := by
    by_contra hgt
    rw [memRead_outside _ _ (by bv_omega)] at hk
    cases hk
  have hbn := hbn.trans h.bn
  have hbi := hbi.trans h.bi
  have noFault : (s.refilled x).controlFault = none :=
    (controlFault_none _).mpr ⟨by bv_omega, by rw [refilled_upc h.upc]; decide, fun _ => ⟨n, i, hbn, hbi, hlt⟩⟩
  have data : (s.refilled x).stream = d :: rest := by rw [State.stream, hrx, hcmd, h.rx, h.cmd, List.nil_append]
  have xorb : step (s.refilled x) = .next (s.afterByte x n i rest (d ^^^ k)) := by
    rw [step_issuesXorb (hreset.trans h.free.1) noFault issued]
    exact exec_xorb_processes ((context_ok _ n i).mpr ⟨hbn, hbi, hlt⟩) hcur63 data hk (hready.trans h.free.2)
  rw [runSteps_add _ 1 _ _ refill, runSteps_succ 0 _ _ xorb, runSteps_zero]

theorem State.InCommand.afterByte {d : Byte} {rest : List Byte} (h : s.InCommand n i (d :: rest))
    (x : Vector Word 16) (v : Byte) : (s.afterByte x n i rest v).InCommand n (i + 1) rest := by
  obtain ⟨-, ⟨-, hbn, -⟩, -, hready, hreset⟩ := refilled_frame x s
  exact ⟨rfl, refilled_upc h.upc x, hbn.trans h.bn, rfl, rfl, rfl, hreset.trans h.free.1, hready.trans h.free.2⟩

end

/-! ## Where a data byte leaves the block in its keystream (R180, R181) -/

/-- The block stands at data byte `k` of its keystream and KS holds that byte's block, so that XORB can take it: S[12]
is one ahead of the block number (R180), and CUR is the place of the byte in the block. -/
structure State.HoldsByte (kw : Vector Word 8) (nw : Vector Word 3) (c0 : Word) (k : Nat) (s : State) : Prop where
  initd : s.initd = true
  key : s.key = written kw
  nonce : s.nonce = written nw
  ctr : s.ctr = some (c0 + BitVec.ofNat 32 (k / 64 + 1))
  cur : s.cur.toNat = k % 64
  ks : ∀ j : Fin 64, memRead s.ks j.val = some (keystreamByte kw nw c0 (64 * (k / 64) + j.val))

section

variable {kw : Vector Word 8} {nw : Vector Word 3} {c0 : Word} {k : Nat} {s : State}

theorem State.HoldsByte.memRead_cur (h : s.HoldsByte kw nw c0 k) :
    memRead s.ks s.cur.toNat = some (keystreamByte kw nw c0 k) := by
  simpa [h.cur, Nat.div_add_mod] using h.ks ⟨k % 64, Nat.mod_lt k (by decide)⟩

/-- The position after a data byte. -/
theorem State.HoldsByte.xorbDone (h : s.HoldsByte kw nw c0 k) (n i : Word) (rest : List Byte) (v : Byte) :
    ((s.xorbDone n i rest).send v).Positioned kw nw c0 (k + 1) where
  initd := h.initd
  key := h.key
  nonce := h.nonce
  ctr := by rw [show (k + 1 + 63) / 64 = k / 64 + 1 by omega]; exact h.ctr
  cur := by
    have hcur := h.cur
    simp only [State.send_cur, State.xorbDone_cur, Nat.add_one_ne_zero, if_false, Nat.add_sub_cancel]
    bv_omega
  ks _ := h.ks

/-- The words of S at data byte `k` (R180). -/
theorem State.Positioned.allS (h : s.Positioned kw nw c0 k) :
    s.allS = some (cipherWords kw (c0 + BitVec.ofNat 32 ((k + 63) / 64)) nw) :=
  allS_written s kw _ nw h.key h.ctr h.nonce

theorem State.Positioned.cur_le (h : s.Positioned kw nw c0 k) : s.cur ≤ 64#7 := by
  have hcur := h.cur
  split_ifs at hcur <;> bv_omega

/-- The LOOP test fires exactly at the first byte of a block. -/
theorem State.Positioned.due_iff (h : s.Positioned kw nw c0 k) : (s.cur = 0#7 ∨ s.cur = 64#7) ↔ k % 64 = 0 := by
  have hcur := h.cur
  split_ifs at hcur <;> bv_omega

/-- Byte `j` of block `m` of a keystream. -/
theorem keystreamByte_block (kw : Vector Word 8) (nw : Vector Word 3) (c0 : Word) (m : Nat) (j : Fin 64) :
    keystreamByte kw nw c0 (64 * m + j.val) = (block (cipherWords kw (c0 + BitVec.ofNat 32 m) nw))[j] := by
  have hdiv : (64 * m + j.val) / 64 = m := by omega
  have hmod : (64 * m + j.val) % 64 = j.val := by omega
  simp only [keystreamByte, hdiv, hmod, Fin.getElem_fin]

/-- REGEN writes the block whose first byte is data byte `k`. -/
theorem State.Positioned.regenerated (h : s.Positioned kw nw c0 k) (hk : k % 64 = 0) :
    (s.regenerated (cipherWords kw (c0 + BitVec.ofNat 32 (k / 64)) nw)).HoldsByte kw nw c0 k where
  initd := by simp [State.regenerated, h.initd]
  key := by simp [State.regenerated, h.key]
  nonce := by simp [State.regenerated, h.nonce]
  ctr := by
    simp [State.regenerated, cipherWords, add32, BitVec.ofNat_add, BitVec.add_assoc]
  cur := by simp [State.regenerated, hk]
  ks j := by rw [memRead_regenerated, keystreamByte_block]

/-- Within a block KS already holds the byte. -/
theorem State.Positioned.holdsByte (h : s.Positioned kw nw c0 k) (hk : k % 64 ≠ 0) : s.HoldsByte kw nw c0 k where
  initd := h.initd
  key := h.key
  nonce := h.nonce
  ctr := by rw [h.ctr, show (k + 63) / 64 = k / 64 + 1 by omega]
  cur := by rw [h.cur, if_neg (by omega)]; omega
  ks := by
    have hks := h.ks (by omega)
    rwa [show (k - 1) / 64 = k / 64 by omega] at hks

theorem State.Positioned.refilled (h : s.Positioned kw nw c0 k) {x : Vector Word 16} (hx : s.allS = some x) :
    (s.refilled x).HoldsByte kw nw c0 k := by
  obtain rfl := Option.some.inj (hx.symm.trans h.allS)
  unfold State.refilled
  split_ifs with hdue
  · have hk := h.due_iff.mp hdue
    rw [show (k + 63) / 64 = k / 64 by omega]
    exact h.regenerated hk
  · exact h.holdsByte fun hk => hdue (h.due_iff.mpr hk)

end

/-- One data byte of a running command whose data starts at some earlier offset: `k` is the offset of this one. -/
theorem State.InCommand.reaches_positioned {n i : Word} {d : Byte} {rest : List Byte} {s : State}
    (h : s.InCommand n i (d :: rest)) (hlt : i < n) {kw : Vector Word 8} {nw : Vector Word 3} {c0 : Word} {k : Nat}
    (hk : s.Positioned kw nw c0 k) :
    ∃ t, Reaches s t ∧ t.InCommand n (i + 1) rest ∧ t.Positioned kw nw c0 (k + 1) ∧
      t.rsp = s.rsp ++ [d ^^^ keystreamByte kw nw c0 k] := by
  have holds := hk.refilled hk.allS
  exact ⟨_, ⟨_, h.runSteps_afterByte hlt hk.cur_le hk.allS holds.memRead_cur⟩, h.afterByte _ _,
    holds.xorbDone n i rest _, afterByte_rsp _ _ _ _ _ s⟩

/-- Settles O56: KS holds the byte at offset `k`, from before or by the regeneration, and XORB takes it. -/
theorem dataByteOutput : Obligations.DataByteOutput := by
  unfold Obligations.DataByteOutput
  intro kw nw c0 k s n i d rest hk hfree hp hu hn hi hlt hrx hcmd
  have loop : s.InCommand n i (d :: rest) := ⟨by rw [hp, if_neg (by bv_omega)], hu, hn, hi, hrx, hcmd, hfree⟩
  obtain ⟨t, run, ht, position, hrsp⟩ := loop.reaches_positioned hlt hk
  exact ⟨t, run, position, hrsp, ht.cmd, ht.rx, ht.bn, ht.bi, ht.phase, ht.upc, ht.free⟩

/-! ## Acceptance of a command (R170, R171) -/

/-- The block is in READY between two commands, nothing holds it up, and `bs` stands on the command stream. -/
structure State.Idle (bs : List Byte) (s : State) : Prop where
  phase : s.phase = .ready
  upc : s.upc = 0#7
  rx : s.rx = []
  cmd : s.cmd = bs
  free : s.free

/-- The state after the acceptance of a command of format CX. -/
def State.accepted (opcode : Byte) (n : Word) (s : State) : State :=
  ((s.take 5).accept opcode n).consumed.send statusOk

theorem State.InCommand.idle {n : Word} {bs : List Byte} {s : State} (h : s.InCommand n n bs) : s.Idle bs :=
  ⟨by rw [h.phase, if_pos rfl], h.upc, h.rx, h.cmd, h.free⟩

theorem State.Idle.noFault {bs : List Byte} {s : State} (h : s.Idle bs) (hcur : s.cur ≤ 64#7) :
    s.controlFault = none :=
  (controlFault_none s).mpr ⟨hcur, by rw [h.upc]; decide, fun hp => absurd h.phase hp⟩

theorem State.Idle.stream {bs : List Byte} {s : State} (h : s.Idle bs) : s.stream = bs := by
  rw [State.stream, h.rx, h.cmd, List.nil_append]

theorem decodeCommand_cxCommand (dec : Bool) (data rest : List Byte) :
    decodeCommand (cxCommand dec data ++ rest) =
      .complete (if dec then .decrypt (BitVec.ofNat 32 data.length) else .encrypt (BitVec.ofNat 32 data.length)) 5 := by
  rw [cxCommand, List.append_assoc]
  cases dec with
  | false => exact decodeCommand_encode rfl rfl _
  | true => exact decodeCommand_encode rfl rfl _

theorem drop_header_cxCommand (dec : Bool) (data rest : List Byte) :
    (cxCommand dec data ++ rest).drop 5 = data ++ rest := by
  cases dec <;> rfl

theorem State.Idle.accepted {dec : Bool} {data rest : List Byte} {s : State}
    (h : s.Idle (cxCommand dec data ++ rest)) (opcode : Byte) {n : Word} (hn : n ≠ 0) :
    (s.accepted opcode n).InCommand n 0 (data ++ rest) where
  phase := by rw [if_neg hn.symm]; simp [State.accepted]
  upc := by simp [State.accepted, h.upc]
  bn := by simp [State.accepted]
  bi := by simp [State.accepted]
  rx := by simp [State.accepted]
  cmd := by simp [State.accepted, h.stream, drop_header_cxCommand]
  free := by simpa [State.accepted, State.free] using h.free

/-- An ENCRYPT or DECRYPT at the head of the stream is accepted in one step. -/
theorem State.Idle.step_accepted {dec : Bool} {data rest : List Byte} {s : State}
    (h : s.Idle (cxCommand dec data ++ rest)) (hcur : s.cur ≤ 64#7) (hinit : s.initd = true) (hne : data ≠ [])
    (hlen : data.length < 2 ^ 32) :
    ∃ opcode, step s = .next (s.accepted opcode (BitVec.ofNat 32 data.length)) ∧
      (s.accepted opcode (BitVec.ofNat 32 data.length)).InCommand (BitVec.ofNat 32 data.length) 0 (data ++ rest) := by
  have hpos : data.length ≠ 0 := by rwa [ne_eq, List.length_eq_zero_iff]
  have hn : BitVec.ofNat 32 data.length ≠ 0 := by bv_omega
  have run := stepRunsDecodedCommand s _ 5 h.free.1 (h.noFault hcur) h.phase
    (h.stream ▸ decodeCommand_cxCommand dec data rest)
  have accept := streamCommand_accepted (s := s.take 5) hinit hn h.free.2
  cases dec with
  | false => exact ⟨0x02#8, run.trans (accept _), h.accepted _ hn⟩
  | true => exact ⟨0x03#8, run.trans (accept _), h.accepted _ hn⟩

theorem accepted_rsp (opcode : Byte) (n : Word) (s : State) : (s.accepted opcode n).rsp = s.rsp ++ [statusOk] := by
  simp [State.accepted]

theorem accepted_cur (opcode : Byte) (n : Word) (s : State) : (s.accepted opcode n).cur = s.cur := by
  simp [State.accepted]

/-- An acceptance leaves the block where it stands in its keystream. -/
theorem State.Positioned.accepted {kw : Vector Word 8} {nw : Vector Word 3} {c0 : Word} {k : Nat} {s : State}
    (h : s.Positioned kw nw c0 k) (opcode : Byte) (n : Word) : (s.accepted opcode n).Positioned kw nw c0 k := by
  have taken := h.of_sameButStreams (sameButStreams_take 5 s)
  have accept : ((s.take 5).accept opcode n).Positioned kw nw c0 k :=
    ⟨taken.initd, taken.key, taken.nonce, taken.ctr, taken.cur, taken.ks⟩
  exact accept.of_sameButStreams (sameButStreams_consumed_send statusOk _)

/-! ## The steps of a command, counted (R177, 70_reset_and_hazards.md R242) -/

theorem runSteps_keeps_inv {m : Nat} {s t : State} (hi : s.Inv) (h : runSteps m s = .next t) : t.Inv := by
  induction m generalizing s with
  | zero => exact Host.Outcome.next.inj h ▸ hi
  | succ m ih =>
    rw [runSteps_unfold] at h
    cases hs : step s with
    | next u =>
      rw [hs] at h
      exact ih (stepKeepsInvariant s u hi hs) h
    | fault f => simp [hs] at h
    | refused r => simp [hs] at h

theorem refilled_cur (x : Vector Word 16) (s : State) :
    (s.refilled x).cur = if s.cur = 0#7 ∨ s.cur = 64#7 then 0 else s.cur := by
  unfold State.refilled
  split_ifs
  · simp [State.regenerated]
  · rfl

/-- Where a command runs, the byte of KS that XORB needs is written by then. -/
theorem State.Inv.memRead_refilled {s : State} (hi : s.Inv) (hinit : s.initd = true) (x : Vector Word 16) :
    ∃ k, memRead (s.refilled x).ks (s.refilled x).cur.toNat = some k := by
  have hcur := hi.cursor
  apply Option.isSome_iff_exists.mp
  unfold State.refilled
  split_ifs with hdue
  · have first : (s.regenerated x).cur.toNat = (0 : Fin 64).val := by simp [State.regenerated]
    rw [first, memRead_regenerated]
    rfl
  · obtain ⟨h0, h64⟩ := not_or.mp hdue
    exact hi.keystream hinit h0 ⟨s.cur.toNat, by bv_omega⟩

/-- A data byte taken out of R(c, n): the LOOP test for it fires or not, and leaves the cursor one further. -/
theorem regenCount_succ {c : Nat} (hc : c ≤ 64) (m : Nat) :
    regenCount c (m + 1) =
      (if c = 0 ∨ c = 64 then 1 else 0) + regenCount ((if c = 0 ∨ c = 64 then 0 else c) + 1) m := by
  by_cases hdue : c = 0 ∨ c = 64
  · simp only [regenCount, hdue, if_true, if_false, Nat.zero_add, Nat.reduceEqDiff, or_self]
    omega
  · rw [if_neg hdue, if_neg hdue, regenCount, if_neg hdue, regenCount]
    by_cases hlast : c + 1 = 64
    · rw [if_pos (.inr hlast)]
      omega
    · rw [if_neg (by omega)]
      omega

theorem regenCount_zero (c : Nat) : regenCount c 0 = 0 := by
  unfold regenCount
  split_ifs <;> omega

/-- The steps of `m + 1` data bytes are those of the first, and then those of the others from the cursor it leaves. -/
theorem commandSteps_succ {s : State} (hcur : s.cur ≤ 64#7) (x : Vector Word 16) (n i : Word) (rest : List Byte)
    (v : Byte) (m : Nat) :
    m + 1 + 86 * regenCount s.cur.toNat (m + 1) =
      ((if s.cur = 0#7 ∨ s.cur = 64#7 then 86 else 0) + 1) +
        (m + 86 * regenCount (s.afterByte x n i rest v).cur.toNat m) := by
  have due : (s.cur.toNat = 0 ∨ s.cur.toNat = 64) ↔ (s.cur = 0#7 ∨ s.cur = 64#7) := by bv_omega
  have next : (s.afterByte x n i rest v).cur.toNat = (if s.cur = 0#7 ∨ s.cur = 64#7 then 0 else s.cur.toNat) + 1 := by
    rw [afterByte_cur, refilled_cur]
    split_ifs <;> bv_omega
  rw [next, regenCount_succ hcur]
  simp only [due]
  split_ifs <;> omega

/-- A command runs to its end in as many steps as its data bytes and regenerations take. -/
theorem State.InCommand.runSteps_end {n i : Word} {ds rest : List Byte} {s : State}
    (h : s.InCommand n i (ds ++ rest)) (hi : s.Inv) (hlen : i.toNat + ds.length = n.toNat) :
    ∃ t, runSteps (ds.length + 86 * regenCount s.cur.toNat ds.length) s = .next t ∧ t.InCommand n n rest ∧
      t.rsp.length = s.rsp.length + ds.length := by
  induction ds generalizing i s with
  | nil =>
    obtain rfl : i = n := by simpa [BitVec.toNat_inj] using hlen
    exact ⟨s, by rw [List.length_nil, regenCount_zero]; rfl, h, rfl⟩
  | cons d ds ih =>
    rw [List.length_cons] at hlen ⊢
    rw [List.cons_append] at h
    have hlt : i < n := by bv_omega
    have hinit : s.initd = true := (hi.context (by simp [h.phase_of_lt hlt])).1
    obtain ⟨x, hx⟩ := Option.isSome_iff_exists.mp ((allS_isSome s).mpr (hi.initd.mp hinit))
    obtain ⟨k, hk⟩ := hi.memRead_refilled hinit x
    have first := h.runSteps_afterByte hlt hi.cursor hx hk
    obtain ⟨t, others, ht, hrsp⟩ :=
      ih (h.afterByte x (d ^^^ k)) (runSteps_keeps_inv hi first) (by bv_omega)
    refine ⟨t, ?_, ht, by rw [hrsp, afterByte_rsp, List.length_append, List.length_singleton]; omega⟩
    rw [commandSteps_succ hi.cursor, runSteps_add _ _ _ _ first, others]

/-- Settles O58: the acceptance, and then the data bytes one by one. -/
theorem commandEndsAfterCountedSteps : Obligations.CommandEndsAfterCountedSteps := by
  unfold Obligations.CommandEndsAfterCountedSteps
  intro s dec data rest hi hfree hp hinit hrx hcmd hne hlen
  have idle : s.Idle (cxCommand dec data ++ rest) := ⟨hp, hi.outside (by simp [hp]), hrx, hcmd, hfree⟩
  obtain ⟨opcode, accept, loop⟩ := idle.step_accepted hi.cursor hinit hne hlen
  obtain ⟨t, run, ht, hrsp⟩ := loop.runSteps_end (stepKeepsInvariant s _ hi accept) (by bv_omega)
  rw [accepted_cur] at run
  refine ⟨t, ?_, ht.idle.phase, ht.upc, ht.cmd, ht.rx, ?_, ht.bi, ht.bn⟩
  · rw [Nat.add_assoc, Nat.add_comm, runSteps_succ _ _ _ accept, run]
  · rw [hrsp, accepted_rsp, List.length_append, List.length_singleton]

/-! ## A sequence of commands (R178, R181) -/

section

variable {kw : Vector Word 8} {nw : Vector Word 3} {c0 : Word}

/-- The rest of a command's data. -/
theorem State.InCommand.reaches_end {n i : Word} {ds rest : List Byte} {k : Nat} {s : State}
    (h : s.InCommand n i (ds ++ rest)) (hlen : i.toNat + ds.length = n.toNat) (hk : s.Positioned kw nw c0 k) :
    ∃ t, Reaches s t ∧ t.Idle rest ∧ t.Positioned kw nw c0 (k + ds.length) ∧
      t.rsp = s.rsp ++ xorStream kw nw c0 k ds := by
  induction ds generalizing i k s with
  | nil =>
    obtain rfl : i = n := by simpa [BitVec.toNat_inj] using hlen
    exact ⟨s, .refl s, h.idle, hk, by rw [xorStream, List.append_nil]⟩
  | cons d ds ih =>
    rw [List.length_cons] at hlen
    have hlt : i < n := by bv_omega
    obtain ⟨u, first, hu, huk, hursp⟩ := h.reaches_positioned hlt hk
    obtain ⟨t, others, ht, htk, hrsp⟩ := ih hu (by bv_omega) huk
    refine ⟨t, first.trans others, ht, ?_, ?_⟩
    · rwa [List.length_cons, Nat.add_comm ds.length, ← Nat.add_assoc]
    · rw [hrsp, hursp, xorStream, List.append_assoc, List.singleton_append]

/-- From READY to READY over any sequence of commands. -/
theorem State.Idle.reaches_end {cs : List (Bool × List Byte)} {rest : List Byte} {k : Nat} {s : State}
    (h : s.Idle (cxCommands cs ++ rest)) (hcs : cxAccepted cs) (hk : s.Positioned kw nw c0 k) :
    ∃ t, Reaches s t ∧ t.Idle rest ∧ t.Positioned kw nw c0 (k + (cxData cs).length) ∧
      t.rsp = s.rsp ++ cxResponses kw nw c0 k cs := by
  induction cs generalizing k s with
  | nil => exact ⟨s, .refl s, h, hk, by rw [cxResponses, List.append_nil]⟩
  | cons c cs ih =>
    obtain ⟨dec, data⟩ := c
    obtain ⟨⟨hne, hlen⟩, hcs⟩ := List.forall_mem_cons.mp hcs
    rw [cxCommands, List.append_assoc] at h
    obtain ⟨opcode, accept, loop⟩ := h.step_accepted hk.cur_le hk.initd hne hlen
    obtain ⟨u, run, hu, huk, hursp⟩ := loop.reaches_end (by bv_omega) (hk.accepted _ _)
    obtain ⟨t, others, ht, htk, hrsp⟩ := ih hu hcs huk
    refine ⟨t, (Reaches.step accept).trans (run.trans others), ht, ?_, ?_⟩
    · rwa [cxData, List.length_append, ← Nat.add_assoc]
    · simp [hrsp, hursp, accepted_rsp, cxResponses]

end

/-- Settles O57, by induction on the commands and, within each, on its data bytes. -/
theorem commandSequenceOutput : Obligations.CommandSequenceOutput := by
  unfold Obligations.CommandSequenceOutput
  intro kw nw c0 k cs s rest hk hfree hp hu hrx hcmd hcs
  have idle : s.Idle (cxCommands cs ++ rest) := ⟨hp, hu, hrx, hcmd, hfree⟩
  obtain ⟨t, run, ht, position, hrsp⟩ := idle.reaches_end hcs hk
  exact ⟨t, run, position, hrsp, ht.cmd, ht.rx, ht.phase, ht.upc, ht.free⟩

/-! ## The output bytes of a sequence of commands (R182) -/

section

variable (kw : Vector Word 8) (nw : Vector Word 3) (c0 : Word)

/-- The output bytes of each command of a sequence whose data starts at stream offset `k`. -/
def cxOutputs : Nat → List (Bool × List Byte) → List (List Byte)
  | _, [] => []
  | k, (_, data) :: rest => xorStream kw nw c0 k data :: cxOutputs (k + data.length) rest

theorem length_xorStream (k : Nat) (ds : List Byte) : (xorStream kw nw c0 k ds).length = ds.length := by
  induction ds generalizing k with
  | nil => rfl
  | cons d ds ih => rw [xorStream, List.length_cons, ih, List.length_cons]

theorem xorStream_append (k : Nat) (ds es : List Byte) :
    xorStream kw nw c0 k (ds ++ es) = xorStream kw nw c0 k ds ++ xorStream kw nw c0 (k + ds.length) es := by
  induction ds generalizing k with
  | nil => rfl
  | cons d ds ih =>
    rw [List.cons_append, xorStream, ih, xorStream, List.cons_append, List.length_cons, Nat.add_right_comm,
      Nat.add_assoc]

/-- The same keystream bytes a second time give the data back. -/
theorem xorStream_xorStream (k : Nat) (ds : List Byte) :
    xorStream kw nw c0 k (xorStream kw nw c0 k ds) = ds := by
  induction ds generalizing k with
  | nil => rfl
  | cons d ds ih => rw [xorStream, xorStream, ih, BitVec.xor_assoc, BitVec.xor_self, BitVec.xor_zero]

theorem cxResponses_eq_outputs (k : Nat) (cs : List (Bool × List Byte)) :
    cxResponses kw nw c0 k cs = ((cxOutputs kw nw c0 k cs).map (statusOk :: ·)).flatten := by
  induction cs generalizing k with
  | nil => rfl
  | cons c cs ih => rw [cxResponses, ih, cxOutputs, List.map_cons, List.flatten_cons, List.cons_append]

theorem map_length_cxOutputs (k : Nat) (cs : List (Bool × List Byte)) :
    (cxOutputs kw nw c0 k cs).map List.length = cs.map fun c => c.2.length := by
  induction cs generalizing k with
  | nil => rfl
  | cons c cs ih => rw [cxOutputs, List.map_cons, ih, length_xorStream, List.map_cons]

/-- How the data is split into commands is no matter. -/
theorem flatten_cxOutputs (k : Nat) (cs : List (Bool × List Byte)) :
    (cxOutputs kw nw c0 k cs).flatten = xorStream kw nw c0 k (cxData cs) := by
  induction cs generalizing k with
  | nil => rfl
  | cons c cs ih => rw [cxOutputs, List.flatten_cons, ih, cxData, xorStream_append]

end

/-- Settles O59: each block's output is its data XOR the same keystream bytes. -/
theorem decryptUndoesEncrypt : Obligations.DecryptUndoesEncrypt := by
  unfold Obligations.DecryptUndoesEncrypt
  intro kw nw c0 k cs s hk hfree hp hu hrx hcmd hcs
  have outputs {s : State} {ds : List (Bool × List Byte)} (h : s.Idle (cxCommands ds)) (hds : cxAccepted ds)
      (hk : s.Positioned kw nw c0 k) :
      ∃ t, Reaches s t ∧ t.rsp = s.rsp ++ ((cxOutputs kw nw c0 k ds).map (statusOk :: ·)).flatten := by
    rw [← List.append_nil (cxCommands ds)] at h
    obtain ⟨t, run, -, -, hrsp⟩ := h.reaches_end hds hk
    exact ⟨t, run, by rw [hrsp, cxResponses_eq_outputs]⟩
  obtain ⟨t, run, hrsp⟩ := outputs ⟨hp, hu, hrx, hcmd, hfree⟩ hcs hk
  refine ⟨cxOutputs kw nw c0 k cs, t, run, hrsp, map_length_cxOutputs kw nw c0 k cs, ?_⟩
  intro ds s' hk' hfree' hp' hu' hrx' hcmd' hds hdata
  obtain ⟨t', run', hrsp'⟩ := outputs ⟨hp', hu', hrx', hcmd', hfree'⟩ hds hk'
  refine ⟨cxOutputs kw nw c0 k ds, t', run', hrsp', map_length_cxOutputs kw nw c0 k ds, ?_⟩
  rw [flatten_cxOutputs, hdata, flatten_cxOutputs, xorStream_xorStream]

/-! ## Random access (R183) -/

section

variable (kw : Vector Word 8) (nw : Vector Word 3) (c0 : Word) (m : Nat)

/-- The keystream of a counter `m` blocks on is the keystream `m` blocks on. -/
theorem keystreamByte_counter_add (k : Nat) :
    keystreamByte kw nw (c0 + BitVec.ofNat 32 m) k = keystreamByte kw nw c0 (64 * m + k) := by
  have hdiv : (64 * m + k) / 64 = m + k / 64 := by omega
  have hmod : (64 * m + k) % 64 = k % 64 := by omega
  simp only [keystreamByte, hdiv, hmod, BitVec.ofNat_add, BitVec.add_assoc]

theorem xorStream_counter_add (k : Nat) (ds : List Byte) :
    xorStream kw nw (c0 + BitVec.ofNat 32 m) k ds = xorStream kw nw c0 (64 * m + k) ds := by
  induction ds generalizing k with
  | nil => rfl
  | cons d ds ih => rw [xorStream, ih, keystreamByte_counter_add, xorStream, Nat.add_assoc]

theorem cxResponses_counter_add (k : Nat) (cs : List (Bool × List Byte)) :
    cxResponses kw nw (c0 + BitVec.ofNat 32 m) k cs = cxResponses kw nw c0 (64 * m + k) cs := by
  induction cs generalizing k with
  | nil => rfl
  | cons c cs ih => rw [cxResponses, ih, xorStream_counter_add, cxResponses, Nat.add_assoc]

end

/-- An INIT at the head of the stream loads the cipher state in one step. -/
theorem State.Idle.step_init {key nonce : List Byte} {ctr : Word} {bs : List Byte} {s : State}
    (h : s.Idle (encode (.init key nonce ctr) ++ bs)) (hf : s.controlFault = none) (hk : key.length = 32)
    (hn : nonce.length = 12) :
    ∃ t, step s = .next t ∧ t.Idle bs ∧ t.rsp = s.rsp ++ [statusOk] ∧
      t.Positioned (Vector.ofFn fun i => wordAt key i.val) (Vector.ofFn fun i => wordAt nonce i.val) ctr 0 := by
  have hwf : (Instr.init key nonce ctr).wf = true := by simp [Instr.wf, hk, hn]
  have run := stepRunsDecodedCommand s _ _ h.free.1 hf h.phase (h.stream ▸ decodeCommand_encode hwf rfl bs)
  have hdrop : s.stream.drop (encode (.init key nonce ctr)).length = bs := by rw [h.stream, List.drop_left]
  generalize (encode (.init key nonce ctr)).length = len at run hdrop
  refine ⟨_, run.trans (exec_init_accepted (s := s.take len) hk hn h.free.2 ctr), ?_, rfl, ?_⟩
  · exact ⟨h.phase, h.upc, rfl, hdrop, h.free⟩
  · exact (positioned_loadCipher key nonce ctr (s.take len)).of_sameButStreams
      (sameButStreams_consumed_send statusOk _)

/-- The SKIP into a block, if offset `k` does not start one, as a sequence of commands (30_encoding.md R86). -/
def skipCommands (k : Nat) : List (Bool × List Byte) :=
  if k % 64 = 0 then [] else [(false, List.replicate (k % 64) 0)]

theorem cxCommands_skipCommands (k : Nat) :
    cxCommands (skipCommands k) = if k % 64 = 0 then [] else cxCommand false (List.replicate (k % 64) 0) := by
  unfold skipCommands
  split_ifs
  · rfl
  · exact List.append_nil _

theorem cxAccepted_skipCommands (k : Nat) : cxAccepted (skipCommands k) := by
  unfold skipCommands cxAccepted
  split_ifs with hk
  · simp
  · simp only [List.forall_mem_singleton, List.length_replicate, ne_eq, List.replicate_eq_nil_iff]
    omega

theorem length_cxData_skipCommands (k : Nat) : (cxData (skipCommands k)).length = k % 64 := by
  unfold skipCommands
  split_ifs with hk
  · exact hk.symm
  · simp [cxData]

theorem length_cxResponses_skipCommands (kw : Vector Word 8) (nw : Vector Word 3) (c0 : Word) (k : Nat) :
    (cxResponses kw nw c0 0 (skipCommands k)).length = if k % 64 = 0 then 0 else 1 + k % 64 := by
  unfold skipCommands
  split_ifs
  · rfl
  · simp [cxResponses, length_xorStream, Nat.add_comm]

/-- Settles O60: INIT, SKIP as a sequence of at most one command, and the commands after it. -/
theorem randomAccessIntoKeystream : Obligations.RandomAccessIntoKeystream := by
  unfold Obligations.RandomAccessIntoKeystream
  intro s key nonce c0 k cs rest kw nw skip hk hn hfree hf hp hu hrx hcmd hcs
  have start : s.Idle _ := ⟨hp, hu, hrx, hcmd, hfree⟩
  obtain ⟨u, init, hu, hursp, huk⟩ := start.step_init hf hk hn
  have hskip : skip = cxCommands (skipCommands k) := (cxCommands_skipCommands k).symm
  obtain ⟨v, skipping, hv, hvk, hvrsp⟩ := (hskip ▸ hu).reaches_end (cxAccepted_skipCommands k) huk
  rw [length_cxData_skipCommands, Nat.zero_add] at hvk
  obtain ⟨t, commands, ht, htk, hrsp⟩ := hv.reaches_end hcs hvk
  refine ⟨t, cxResponses kw nw (c0 + BitVec.ofNat 32 (k / 64)) 0 (skipCommands k),
    (Reaches.step init).trans (skipping.trans commands), ?_, length_cxResponses_skipCommands kw nw _ k, htk, ht.cmd,
    ht.rx, ht.phase, ht.upc, ht.free⟩
  rw [cxResponses_counter_add, Nat.div_add_mod] at hrsp
  rw [hrsp, hvrsp, hursp, List.append_assoc, List.append_assoc, List.singleton_append]

end Sys2Proof.Machine

/-! SUPPORT. The model faults of 60_exceptions.md and why the invariant excludes them, the status byte that a step in
READY sends, and the obligations of 60_exceptions.md. -/

namespace Sys2Proof.Machine

/-! ## Where the invariant holds, every instruction that is issued answers (60_exceptions.md R208, R209) -/

theorem streamCommand_answers (opcode : Byte) (n : Word) (s : State) : ∃ t, streamCommand opcode n s = .next t := by
  by_cases h : s.initd = true ∧ n ≠ 0 ∧ s.rspReady = true
  · obtain ⟨hi, hn, hready⟩ := h
    exact ⟨_, streamCommand_accepted hi hn hready opcode⟩
  · obtain ⟨t, -, ht⟩ := streamCommand_not_accepted h
    exact ⟨t, ht opcode⟩

theorem execInit_answers (key nonce : List Byte) (ctr : Word) (s : State) : ∃ t, execInit key nonce ctr s = .next t := by
  rw [execInit_eq, raise_eq]
  split_ifs <;> exact ⟨_, rfl⟩

/-- A command that has been decoded meets no model fault, in any state. -/
theorem exec_command_answers {bs : List Byte} {i : Instr} {len : Nat} (hd : decodeCommand bs = .complete i len)
    (s : State) : ∃ t, exec i s = .next t := by
  obtain ⟨key, nonce, ctr, rfl⟩ | ⟨n, rfl⟩ | ⟨n, rfl⟩ := decodeCommand_complete_cases hd
  · exact execInit_answers key nonce ctr s
  · exact streamCommand_answers _ n s
  · exact streamCommand_answers _ n s

/-- No code of the ROM is reserved. -/
theorem rom_decodes {u : Nat} (hu : u < 85) : ∃ code i, rom[u]? = some code ∧ decodeMicro code = .op i := by
  have hcode : rom[u]? = some (rom[u]'(by rwa [length_rom])) := List.getElem?_eq_getElem _
  have hmem := List.mem_map_of_mem (f := decodeMicro) (List.mem_of_getElem? hcode)
  rw [map_decodeMicro_rom] at hmem
  obtain ⟨i, -, hi⟩ := List.mem_map.mp hmem
  exact ⟨_, i, hcode, hi.symm⟩

theorem State.Inv.noFault {s : State} (hi : s.Inv) : s.controlFault = none :=
  (controlFault_none s).mpr ⟨hi.cursor, hi.inside, fun hp => (hi.context hp).2⟩

/-- S is written while a command runs, W once LDW has run: the micro-op at UPC reads written words only. -/
theorem State.Inv.microOp_answers {s : State} (hi : s.Inv) (hp : s.phase = .regen) {code : Byte} {i : Instr}
    (hc : rom[s.upc.toNat]? = some code) (hd : decodeMicro code = .op i) : ∃ t, exec i s = .next t := by
  obtain ⟨x, hx, -⟩ := sFile_of_sWritten (hi.initd.mp (hi.context (by simp [hp])).1)
  have w_written (h : 1 ≤ s.upc.toNat) : ∃ y, s.allW = some y ∧ s.w = written y :=
    w_of_wWritten (hi.regenW hp (by bv_omega))
  obtain ⟨-, rfl⟩ | ⟨h1, -, hqr⟩ | ⟨hu, rfl⟩ | ⟨hu, rfl⟩ | ⟨-, rfl⟩ | ⟨-, rfl⟩ := rom_cases hc hd
  · exact ⟨_, execLdw_eq s x hx⟩
  · obtain ⟨a, b, c, d, he⟩ := exec_qrOps hqr
    obtain ⟨y, -, hy⟩ := w_written h1
    exact ⟨_, (he s).trans (qrMicro_written a b c d s y hy)⟩
  · obtain ⟨y, hy, -⟩ := w_written (by omega)
    exact ⟨_, execFfadd_eq s y x hy hx⟩
  · obtain ⟨y, hy, -⟩ := w_written (by omega)
    exact ⟨_, execSer_eq s y hy⟩
  · exact ⟨_, execCtrinc_eq s x[12] (ctr_of_allS hx)⟩
  · exact ⟨_, rfl⟩

/-- The invariant leaves CUR in 0..63 where XORB is issued. -/
theorem State.Inv.cur_of_issuesXorb {s : State} (hi : s.Inv) (h : s.issuesXorb) : s.cur ≤ 63#7 := by
  obtain ⟨-, hc⟩ | hp := h
  · have := hi.cursor
    bv_omega
  · rw [(hi.xfer hp).1]
    decide

/-- Where XORB is issued the context is legal and KS is written, so that it waits or processes a byte. -/
theorem State.Inv.xorb_answers {s : State} (hi : s.Inv) (h : s.issuesXorb) : ∃ t, exec .xorb s = .next t := by
  obtain ⟨-, n, i, hn, hbi, hlt⟩ := hi.context (by rcases h.phase with h | h <;> simp [h])
  have hctx := (context_ok s n i).mpr ⟨hn, hbi, hlt⟩
  have hcur := hi.cur_of_issuesXorb h
  cases hs : s.stream with
  | nil => exact ⟨_, exec_xorb_waits hctx hcur hs⟩
  | cons d rest =>
    obtain ⟨k, hk⟩ := Option.isSome_iff_exists.mp (hi.ksWritten_of_issuesXorb h ⟨s.cur.toNat, by bv_omega⟩)
    exact ⟨_, (execXorb_eq s n i d k rest hctx hcur hs hk).trans (respond_eq _ _ _)⟩

/-! ## The step that stops (60_exceptions.md R209) -/

theorem step_of_controlFault {s : State} {f : Fault} (hr : s.resetLine = false) (hf : s.controlFault = some f) :
    step s = .fault f := by
  simp [step, nextAction, hr, hf]

theorem controlFault_of_cur {s : State} (h : 64#7 < s.cur) : s.controlFault = some .cursorOutOfRange := if_pos h

theorem controlFault_of_upc {s : State} (hc : s.cur ≤ 64#7) (h : 84#7 < s.upc) :
    s.controlFault = some .upcOutOfRange := by
  rw [State.controlFault, if_neg (BitVec.not_lt.mpr hc), if_pos h]

/-- Where CUR and UPC are in range and a command runs, its context decides. -/
theorem controlFault_of_context {s : State} {f : Fault} (hc : s.cur ≤ 64#7) (hu : s.upc ≤ 84#7)
    (hp : s.phase ≠ .ready) (h : s.context = .error f) : s.controlFault = some f := by
  rw [State.controlFault, if_neg (BitVec.not_lt.mpr hc), if_neg (BitVec.not_lt.mpr hu), if_neg hp, h]

theorem context_out_of_range {s : State} {n i : Word} (hn : s.bn = some n) (hi : s.bi = some i) (h : n ≤ i) :
    s.context = .error .contextOutOfRange := by
  simp only [State.context, hn, hi, BitVec.not_lt.mpr h, if_false]

theorem execXorb_cursor_out_of_range {s : State} {n i : Word} (hctx : s.context = .ok (n, i)) (h : 63#7 < s.cur) :
    execXorb s = .fault .cursorOutOfRange := by
  simp only [execXorb, hctx, h, if_true]

/-! ## The status that a step in READY sends (60_exceptions.md R201 to R205) -/

/-- What ENCRYPT or DECRYPT of `n` data bytes sends after its header, to a host that takes bytes: nothing while the
payload of a rejected command is missing. -/
def State.streamStatus (n : Word) (s : State) : List Byte :=
  if s.initd = false then
    if s.cmd.length < n.toNat then [] else [ErrorKind.notInitialized.code]
  else if n = 0 then [ErrorKind.validation.code]
  else [statusOk]

/-- What a decoded command sends, to a host that takes bytes. -/
def State.commandStatus (s : State) : Instr → List Byte
  | .init key nonce _ => [if key.length = 32 ∧ nonce.length = 12 then statusOk else ErrorKind.validation.code]
  | .encrypt n => s.streamStatus n
  | .decrypt n => s.streamStatus n
  | _ => []

/-- What a step in READY sends. -/
def State.readyStatus (s : State) : List Byte :=
  if s.rspReady then
    match decodeCommand s.stream with
    | .incomplete => []
    | .illegal _ => [ErrorKind.illegalCommand.code]
    | .complete i len => (s.take len).commandStatus i
  else []

theorem raise_rsp {e : ErrorKind} {s t : State} (h : raise e s = .next t) :
    t.rsp = s.rsp ++ if s.rspReady then [e.code] else [] := by
  rw [raise_eq, Host.Outcome.next.injEq] at h
  subst h
  split_ifs <;> simp

theorem execInit_rsp {key nonce : List Byte} {ctr : Word} {s t : State} (h : execInit key nonce ctr s = .next t) :
    t.rsp = s.rsp ++ if s.rspReady then s.commandStatus (.init key nonce ctr) else [] := by
  rw [execInit_eq] at h
  split_ifs at h with hlen hready
  · simp [← Host.Outcome.next.inj h, hready, State.commandStatus, hlen]
  · simp [← Host.Outcome.next.inj h, hready]
  · simp [raise_rsp h, State.commandStatus, hlen]

theorem streamCommand_rsp {opcode : Byte} {n : Word} {s t : State} (h : streamCommand opcode n s = .next t) :
    t.rsp = s.rsp ++ if s.rspReady then s.streamStatus n else [] := by
  rw [streamCommand_eq, discardThenRaise_eq] at h
  unfold State.streamStatus
  split_ifs at h with hinit hmissing hready hn hready
  · simp [← Host.Outcome.next.inj h, hinit, hmissing]
  · simp [← Host.Outcome.next.inj h, hinit, hmissing, hready]
  · simp [← Host.Outcome.next.inj h, hready]
  · simp [raise_rsp h, hinit, hn]
  · rw [← Host.Outcome.next.inj h, if_pos hready, if_neg hinit, if_neg hn]
    rfl
  · simp [← Host.Outcome.next.inj h, hready]

theorem step_ready_rsp {s t : State} (hr : s.resetLine = false) (hp : s.phase = .ready) (h : step s = .next t) :
    t.rsp = s.rsp ++ s.readyStatus := by
  obtain ⟨hr', -⟩ | ⟨-, -, h⟩ := step_next_cases s t h
  · simp [hr] at hr'
  simp only [hp, reduceCtorEq, true_and, false_and, or_false] at h
  obtain ⟨hd, rfl⟩ | ⟨⟨op, hd⟩, h⟩ | ⟨i, len, hd, h⟩ := h
  · simp [State.readyStatus, hd]
  · simp only [State.readyStatus, hd]
    exact raise_rsp (s := s.take 1) h
  · simp only [State.readyStatus, hd]
    obtain ⟨key, nonce, ctr, rfl⟩ | ⟨n, rfl⟩ | ⟨n, rfl⟩ := decodeCommand_complete_cases hd
    · exact execInit_rsp (s := s.take len) h
    · exact streamCommand_rsp (s := s.take len) h
    · exact streamCommand_rsp (s := s.take len) h

/-! ## Which status each cause has -/

section

variable (s : State)

theorem streamStatus_eq_notInitialized_iff (n : Word) :
    s.streamStatus n = [0x02#8] ↔ s.initd = false ∧ n.toNat ≤ s.cmd.length := by
  unfold State.streamStatus
  split_ifs with hinit hmissing hn
  · simp [Nat.not_le.mpr hmissing]
  · simp [ErrorKind.code, hinit, Nat.not_lt.mp hmissing]
  · simp [ErrorKind.code, hinit]
  · simp [statusOk, hinit]

theorem streamStatus_eq_validation_iff (n : Word) :
    s.streamStatus n = [0x01#8] ↔ s.initd = true ∧ n = 0#32 := by
  unfold State.streamStatus
  split_ifs with hinit hmissing hn
  · simp [hinit]
  · simp [ErrorKind.code, hinit]
  · simpa [ErrorKind.code, hinit] using hn
  · simpa [statusOk, hinit] using hn

theorem le_of_mem_streamStatus {n : Word} {b : Byte} (h : b ∈ s.streamStatus n) : b ≤ 0x02#8 := by
  unfold State.streamStatus at h
  split_ifs at h
  all_goals simp only [List.mem_singleton, List.not_mem_nil] at h
  all_goals subst h; decide

theorem le_of_mem_commandStatus {i : Instr} {b : Byte} (h : b ∈ s.commandStatus i) : b ≤ 0x02#8 := by
  cases i with
  | init key nonce ctr =>
    rw [State.commandStatus, List.mem_singleton] at h
    subst h
    split_ifs <;> decide
  | encrypt n => exact le_of_mem_streamStatus s h
  | decrypt n => exact le_of_mem_streamStatus s h
  | _ => cases h

/-- The status bytes are the four of R201. -/
theorem le_of_mem_readyStatus {b : Byte} (h : b ∈ s.readyStatus) : b ≤ 0x03#8 := by
  unfold State.readyStatus at h
  split at h
  · split at h
    · cases h
    · rw [List.mem_singleton] at h
      subst h
      decide
    · have := le_of_mem_commandStatus _ h
      bv_omega
  · cases h

theorem commandStatus_ne_illegalCommand (i : Instr) : s.commandStatus i ≠ [0x03#8] := by
  intro h
  have : 0x03#8 ≤ 0x02#8 := le_of_mem_commandStatus s (i := i) (by simp [h])
  exact absurd this (by decide)

theorem commandStatus_eq_notInitialized_iff (i : Instr) :
    s.commandStatus i = [0x02#8] ↔
      s.initd = false ∧ ∃ n, (i = .encrypt n ∨ i = .decrypt n) ∧ n.toNat ≤ s.cmd.length := by
  cases i with
  | init key nonce ctr =>
    simp only [State.commandStatus]
    split_ifs <;> simp [statusOk, ErrorKind.code]
  | encrypt n => simpa [State.commandStatus] using streamStatus_eq_notInitialized_iff s n
  | decrypt n => simpa [State.commandStatus] using streamStatus_eq_notInitialized_iff s n
  | _ => simp [State.commandStatus]

theorem commandStatus_eq_validation_iff (i : Instr) :
    s.commandStatus i = [0x01#8] ↔
      (∃ key nonce ctr, i = .init key nonce ctr ∧ (key.length ≠ 32 ∨ nonce.length ≠ 12)) ∨
        s.initd = true ∧ (i = .encrypt 0#32 ∨ i = .decrypt 0#32) := by
  cases i with
  | init key nonce ctr =>
    simp only [State.commandStatus]
    split_ifs with hlen
    · simp [statusOk, hlen]
    · simpa [ErrorKind.code, or_iff_not_imp_left] using hlen
  | encrypt n => simpa [State.commandStatus] using streamStatus_eq_validation_iff s n
  | decrypt n => simpa [State.commandStatus] using streamStatus_eq_validation_iff s n
  | _ => simp [State.commandStatus]

end

section

variable {s : State} (hready : s.rspReady = true)

include hready

theorem readyStatus_eq_illegalCommand_iff :
    s.readyStatus = [0x03#8] ↔ ∃ op, decodeCommand s.stream = .illegal op := by
  rw [State.readyStatus, if_pos hready]
  cases hd : decodeCommand s.stream with
  | incomplete => simp
  | illegal op => simp [ErrorKind.code]
  | complete i len => simp [commandStatus_ne_illegalCommand]

/-- The `n` data bytes are there exactly where the whole command is: its header has been decoded. -/
theorem readyStatus_eq_notInitialized_iff :
    s.readyStatus = [0x02#8] ↔
      s.initd = false ∧ ∃ n len, (decodeCommand s.stream = .complete (.encrypt n) len ∨
        decodeCommand s.stream = .complete (.decrypt n) len) ∧ len + n.toNat ≤ s.stream.length := by
  rw [State.readyStatus, if_pos hready]
  cases hd : decodeCommand s.stream with
  | incomplete => simp
  | illegal op => simp [ErrorKind.code]
  | complete i len =>
    obtain ⟨-, -, hlen, rest, hstream⟩ := decodeCommand_complete_encode hd
    have payload (n : Word) : n.toNat ≤ s.stream.length - len ↔ len + n.toNat ≤ s.stream.length := by
      have := congrArg List.length hstream
      rw [List.length_append] at this
      omega
    simp [commandStatus_eq_notInitialized_iff, payload, ← or_and_right]

theorem readyStatus_eq_validation_iff :
    s.readyStatus = [0x01#8] ↔
      (∃ key nonce ctr len, decodeCommand s.stream = .complete (.init key nonce ctr) len ∧
        (key.length ≠ 32 ∨ nonce.length ≠ 12)) ∨
      (s.initd = true ∧ ∃ len, decodeCommand s.stream = .complete (.encrypt 0#32) len ∨
        decodeCommand s.stream = .complete (.decrypt 0#32) len) := by
  rw [State.readyStatus, if_pos hready]
  cases hd : decodeCommand s.stream with
  | incomplete => simp
  | illegal op => simp [ErrorKind.code]
  | complete i len => simp [commandStatus_eq_validation_iff, exists_or]

end

/-- A command is rejected by its first byte alone (60_exceptions.md R204). -/
theorem decodeCommand_illegal_iff (bs : List Byte) :
    (∃ op, decodeCommand bs = .illegal op) ↔ ∃ op rest, bs = op :: rest ∧ (op = 0x00#8 ∨ 0x04#8 ≤ op) := by
  constructor
  · rintro ⟨op, h⟩
    cases bs with
    | nil => cases h
    | cons b rest =>
      refine ⟨b, rest, rfl, (illegalOpcodes b rest).mp ?_⟩
      rw [decodeCommand] at h ⊢
      split_ifs at h ⊢
      · exact absurd h (decodeInit_ne_illegal _ _)
      · exact absurd h (decodeCx_ne_illegal _ _ _)
      · exact absurd h (decodeCx_ne_illegal _ _ _)
      · rfl
  · rintro ⟨op, rest, rfl, h⟩
    exact ⟨op, (illegalOpcodes op rest).mpr h⟩

/-! ## What a rejection leaves (60_exceptions.md R206) -/

theorem State.sameButStreams.sameRecord {s t : State} (h : s.sameButStreams t) : s.sameRecord t := by
  obtain ⟨_, _, _, rfl⟩ := h
  exact ⟨⟨rfl, rfl, rfl⟩, rfl, fun _ => rfl, rfl, rfl, rfl, rfl, rfl, rfl, rfl⟩

/-- In READY a step accepts a command and sends status OK, or it touches the streams only. -/
theorem StepEffect.sameButStreams_or_accepts {s t : State} (h : StepEffect s t) (hp : s.phase = .ready) :
    s.sameButStreams t ∨ t.rsp = s.rsp ++ [statusOk] := by
  cases h with
  | stays _ same => exact .inl same
  | init key nonce ctr len _ _ _ _ next => exact .inr (by simp [next])
  | accept opcode n len _ _ _ _ next => exact .inr (by simp [next])
  | xorb n i d k rest issued => rcases issued.phase with h | h <;> simp [hp] at h
  -- Every other effect is one of LOOP or REGEN.
  | _ => simp_all

theorem streamCommand_empty_rejected {s : State} (hi : s.initd = true) (hready : s.rspReady = true) (opcode : Byte) :
    streamCommand opcode 0 s = .next (s.consumed.send ErrorKind.validation.code) := by
  rw [streamCommand_eq, if_neg (by simp [hi]), if_pos rfl, raise_ready _ _ hready]

section

variable {s : State} {n : Word} (hi : s.initd = false)

include hi

theorem streamCommand_uninitialized_rejected (hn : n.toNat ≤ s.cmd.length) (hready : s.rspReady = true)
    (opcode : Byte) :
    streamCommand opcode n s =
      .next ((s.taken (s.rx ++ s.cmd.take n.toNat) (s.cmd.drop n.toNat)).consumed.send
        ErrorKind.notInitialized.code) := by
  rw [streamCommand_eq, if_pos hi, discardThenRaise_eq, if_neg (Nat.not_lt.mpr hn), if_pos hready]

theorem streamCommand_uninitialized_waits (hn : s.cmd.length < n.toNat) (opcode : Byte) :
    streamCommand opcode n s = .next (s.taken (s.rx ++ s.cmd) []) := by
  rw [streamCommand_eq, if_pos hi, discardThenRaise_eq, if_pos hn]

end

/-! ## The obligations of 60_exceptions.md -/

/-- Settles O51: in every phase the invariant gives what the instruction there reads. -/
theorem invariantExcludesFaults : Obligations.InvariantExcludesFaults := by
  unfold Obligations.InvariantExcludesFaults
  intro s hi
  have hf := hi.noFault
  cases hr : s.resetLine with
  | true => exact ⟨_, step_of_reset hr⟩
  | false =>
    cases hp : s.phase with
    | ready =>
      cases hd : decodeCommand s.stream with
      | incomplete => exact ⟨_, step_ready_incomplete hr hf hp hd⟩
      | illegal op => exact ⟨_, (step_ready_illegal hr hf hp hd).trans (raise_eq _ _)⟩
      | complete i len =>
        rw [stepRunsDecodedCommand s i len hr hf hp hd]
        exact exec_command_answers hd _
    | loop =>
      by_cases hc : s.cur = 0#7 ∨ s.cur = 64#7
      · exact ⟨_, step_loop_fires hr hf hp hc⟩
      · rw [step_issuesXorb hr hf (.inl ⟨hp, hc⟩)]
        exact hi.xorb_answers (.inl ⟨hp, hc⟩)
    | regen =>
      have hinside := hi.inside
      obtain ⟨code, i, hc, hd⟩ := rom_decodes (u := s.upc.toNat) (by bv_omega)
      rw [step_regen hr hf hp hc hd]
      exact hi.microOp_answers hp hc hd
    | xfer =>
      rw [step_issuesXorb hr hf (.inr hp)]
      exact hi.xorb_answers (.inr hp)

/-- Settles O41: a step in READY sends `State.readyStatus`. -/
theorem errorCausesAndPriority : Obligations.ErrorCausesAndPriority := by
  unfold Obligations.ErrorCausesAndPriority
  rintro s t ⟨hr, hready⟩ - hp h
  rw [step_ready_rsp hr hp h, List.append_right_inj, List.append_right_inj, List.append_right_inj]
  exact ⟨(readyStatus_eq_illegalCommand_iff hready).trans (decodeCommand_illegal_iff _),
    readyStatus_eq_notInitialized_iff hready, readyStatus_eq_validation_iff hready⟩

/-- Settles O42: an acceptance sends status OK, and everything else that READY does keeps the record of R40. -/
theorem rejectionWritesNoState : Obligations.RejectionWritesNoState := by
  unfold Obligations.RejectionWritesNoState
  intro s t b hp h hrsp
  cases hr : s.resetLine with
  | true =>
    rw [step_of_reset hr, Host.Outcome.next.injEq] at h
    subst h
    simp at hrsp
  | false =>
    have sent := (step_ready_rsp hr hp h).symm.trans hrsp
    refine ⟨le_of_mem_readyStatus s (by simp [List.append_cancel_left sent]), fun hb => ?_⟩
    obtain same | accepted := (stepEffect_of_step hr h).sameButStreams_or_accepts hp
    · refine ⟨same.sameRecord, ?_⟩
      obtain ⟨_, _, _, rfl⟩ := same
      exact hp
    · have hok := List.append_cancel_left (accepted.symm.trans hrsp)
      exact absurd (List.singleton_inj.mp hok).symm hb

/-- Settles O48: each range check by its place among the checks, and the last by XORB itself. -/
theorem impossiblePositionsFault : Obligations.ImpossiblePositionsFault := by
  unfold Obligations.ImpossiblePositionsFault
  intro s hr
  refine ⟨fun hcur => step_of_controlFault hr (controlFault_of_cur hcur),
    fun hcur hupc => step_of_controlFault hr (controlFault_of_upc hcur hupc),
    fun hcur hupc hp hctx =>
      step_of_controlFault hr (controlFault_of_context hcur hupc hp (context_unwritten hctx)),
    fun n i hcur hupc hp hn hi hle =>
      step_of_controlFault hr (controlFault_of_context hcur hupc hp (context_out_of_range hn hi hle)),
    fun n i hn hi hlt hupc hp hcur => ?_⟩
  have hf := (controlFault_none s).mpr ⟨by rw [hcur]; decide, hupc, fun _ => ⟨n, i, hn, hi, hlt⟩⟩
  rw [step_issuesXorb hr hf (.inr hp)]
  exact execXorb_cursor_out_of_range ((context_ok s n i).mpr ⟨hn, hi, hlt⟩) (by rw [hcur]; decide)

/-- Settles O31: ENCRYPT and DECRYPT reject the empty command alike. -/
theorem emptyDataRejected : Obligations.EmptyDataRejected := by
  unfold Obligations.EmptyDataRejected
  exact fun _ hi hready =>
    ⟨streamCommand_empty_rejected hi hready 0x02#8, streamCommand_empty_rejected hi hready 0x03#8⟩

/-- Settles O32: ENCRYPT and DECRYPT discard the payload and wait for it alike. -/
theorem uninitializedRejectedWithPayload : Obligations.UninitializedRejectedWithPayload := by
  unfold Obligations.UninitializedRejectedWithPayload
  exact fun _ _ hi =>
    ⟨fun hn hready => ⟨streamCommand_uninitialized_rejected hi hn hready 0x02#8,
      streamCommand_uninitialized_rejected hi hn hready 0x03#8⟩,
    fun hn => ⟨streamCommand_uninitialized_waits hi hn 0x02#8, streamCommand_uninitialized_waits hi hn 0x03#8⟩⟩

/-- Settles O40: the abort takes the one byte. -/
theorem illegalCommandConsumesOneByte : Obligations.IllegalCommandConsumesOneByte := by
  unfold Obligations.IllegalCommandConsumesOneByte
  rintro s op rest ⟨hr, hready⟩ hf hp hs hop
  have hstream : s.stream = op :: rest := hs
  have hd : decodeCommand s.stream = .illegal op := by
    rw [hstream]
    exact (illegalOpcodes op rest).mpr hop
  rw [step_ready_illegal hr hf hp hd, raise_ready _ (s.take 1) hready, State.take, hstream]
  rfl

end Sys2Proof.Machine

/-! SUPPORT. What a step can do while the block waits: take bytes that have arrived, and nothing else; and that control
does not depend on data: the command decoder reads it from the bytes outside the operand span only, and every operation
takes two states that agree on control to two that do. The obligations of 70_reset_and_hazards.md follow. -/

namespace Sys2Proof.Machine

/-! ## Waits (70_reset_and_hazards.md R240) -/

/-- From `s` to `t` the block at most moves bytes that have arrived to those it has taken. -/
def State.onlyTakes (s t : State) : Prop := ∃ r c, r ++ c = s.stream ∧ t = s.taken r c

theorem State.onlyTakes.refl (s : State) : s.onlyTakes s := ⟨s.rx, s.cmd, rfl, rfl⟩

theorem State.onlyTakes.trans {s t u : State} (h : s.onlyTakes t) (h' : t.onlyTakes u) : s.onlyTakes u := by
  obtain ⟨_, _, hs, rfl⟩ := h
  obtain ⟨r, c, ht, rfl⟩ := h'
  exact ⟨r, c, ht.trans hs, rfl⟩

theorem onlyTakes_take (len : Nat) (s : State) : s.onlyTakes (s.take len) :=
  ⟨_, _, List.take_append_drop len s.stream, rfl⟩

/-- Bytes taken one after the other from the command stream. -/
theorem rx_append_take_append_drop (n : Nat) (s : State) : (s.rx ++ s.cmd.take n) ++ s.cmd.drop n = s.stream := by
  rw [List.append_assoc, List.take_append_drop, State.stream]

theorem take_stream_length (s : State) : s.take s.stream.length = s.taken s.stream [] := by
  rw [State.take, List.take_length, List.drop_length]

section

variable {s t : State} (hready : s.rspReady = false)

include hready

theorem respond_onlyTakes {v : Byte} {done : State} (h : respond v s done = .next t) : s.onlyTakes t := by
  rw [respond_waits _ _ _ hready] at h
  exact Host.Outcome.next.inj h ▸ .refl s

theorem raise_onlyTakes {e : ErrorKind} (h : raise e s = .next t) : s.onlyTakes t := respond_onlyTakes hready h

theorem discardThenRaise_onlyTakes {n : Nat} {e : ErrorKind} (h : discardThenRaise n e s = .next t) :
    s.onlyTakes t := by
  unfold discardThenRaise at h
  split_ifs at h
  · exact ⟨s.rx ++ s.cmd, [], List.append_nil _, (Host.Outcome.next.inj h).symm⟩
  · have discarded : s.onlyTakes (s.taken (s.rx ++ s.cmd.take n) (s.cmd.drop n)) :=
      ⟨_, _, rx_append_take_append_drop n s, rfl⟩
    exact discarded.trans (raise_onlyTakes hready h)

theorem streamCommand_onlyTakes {opcode : Byte} {n : Word} (h : streamCommand opcode n s = .next t) :
    s.onlyTakes t := by
  unfold streamCommand at h
  split_ifs at h
  · exact discardThenRaise_onlyTakes hready h
  · exact raise_onlyTakes hready h
  · exact respond_onlyTakes hready h

theorem execInit_onlyTakes {key nonce : List Byte} {ctr : Word} (h : execInit key nonce ctr s = .next t) :
    s.onlyTakes t := by
  unfold execInit at h
  split_ifs at h
  · exact raise_onlyTakes hready h
  · exact respond_onlyTakes hready h

theorem execXorb_onlyTakes (h : execXorb s = .next t) : s.onlyTakes t := by
  obtain ⟨n, i, -, -, ⟨-, rfl⟩ | ⟨d, rest, k, hs, -, h⟩⟩ := execXorb_next s t h
  · exact .refl _
  · have data : s.onlyTakes (s.taken [d] rest) := ⟨[d], rest, hs.symm, rfl⟩
    exact data.trans (respond_onlyTakes hready h)

/-- A host that takes no response byte holds up every command and XORB before it has changed anything (log 8). -/
theorem step_onlyTakes (hr : s.resetLine = false) (hat : s.phase = .ready ∨ s.issuesXorb) (h : step s = .next t) :
    s.onlyTakes t := by
  obtain ⟨hr', -⟩ | ⟨-, hf, h'⟩ := step_next_cases s t h
  · simp [hr] at hr'
  obtain hp | hx := hat
  · simp only [hp, reduceCtorEq, true_and, false_and, or_false] at h'
    obtain ⟨-, rfl⟩ | ⟨-, h'⟩ | ⟨i, len, hd, h'⟩ := h'
    · exact onlyTakes_take _ s
    · exact (onlyTakes_take 1 s).trans (raise_onlyTakes hready h')
    · refine (onlyTakes_take len s).trans ?_
      obtain ⟨key, nonce, ctr, rfl⟩ | ⟨n, rfl⟩ | ⟨n, rfl⟩ := decodeCommand_complete_cases hd
      · exact execInit_onlyTakes hready h'
      · exact streamCommand_onlyTakes hready h'
      · exact streamCommand_onlyTakes hready h'
  · rw [step_issuesXorb hr hf hx] at h
    exact execXorb_onlyTakes hready h

end

/-- A command that would be rejected with NOT_INITIALIZED waits for its payload (60_exceptions.md R203). -/
theorem step_uninitialized_waits {s : State} (hr : s.resetLine = false) (hf : s.controlFault = none)
    (hp : s.phase = .ready) (hi : s.initd = false) {n : Word} {i : Instr} (hn : i = .encrypt n ∨ i = .decrypt n)
    {len : Nat} (hd : decodeCommand s.stream = .complete i len) (hlen : s.stream.length < len + n.toNat) :
    step s = .next (s.taken s.stream []) := by
  obtain ⟨-, -, rfl, rest, hstream⟩ := decodeCommand_complete_encode hd
  have missing : (s.take (encode i).length).cmd.length < n.toNat := by
    rw [hstream, List.length_append] at hlen
    rw [State.take_cmd, hstream, List.drop_left]
    omega
  have waits (opcode : Byte) : streamCommand opcode n (s.take (encode i).length) = .next (s.taken s.stream []) := by
    rw [streamCommand_uninitialized_waits (s := s.take _) hi missing, State.take_rx, State.take_cmd,
      List.take_append_drop]
    rfl
  rw [stepRunsDecodedCommand s i _ hr hf hp hd]
  obtain rfl | rfl := hn
  · exact waits 0x02#8
  · exact waits 0x03#8

/-- XORB waits for its data byte (20_memory.md R65). -/
theorem step_xorb_waits {s : State} (hr : s.resetLine = false) (hf : s.controlFault = none) (hx : s.issuesXorb)
    (hcur : s.cur ≠ 64#7) (hs : s.stream = []) : step s = .next s := by
  obtain ⟨hcur64, -, hctx⟩ := (controlFault_none s).mp hf
  obtain ⟨n, i, hctx⟩ := hctx (by rcases hx.phase with h | h <;> simp [h])
  rw [step_issuesXorb hr hf hx]
  exact exec_xorb_waits ((context_ok s n i).mpr hctx) (by bv_omega) hs

/-! ## The obligations on reset and on waits -/

/-- Settles O46: each wait answers the state but for the bytes taken. -/
theorem waitingChangesNothing : Obligations.WaitingChangesNothing := by
  unfold Obligations.WaitingChangesNothing
  refine ⟨fun s hr hf hp hd => ?_, fun s n len hr hf hp hi hd hlen => ?_, fun s hr hf hat hs => ?_,
    fun s t hr hready hat h => ?_⟩
  · rw [step_ready_incomplete hr hf hp hd, take_stream_length]
    rfl
  · obtain hd | hd := hd
    · exact step_uninitialized_waits hr hf hp hi (.inl rfl) hd hlen
    · exact step_uninitialized_waits hr hf hp hi (.inr rfl) hd hlen
  · obtain ⟨hp, hcur⟩ | ⟨hp, h0, h64⟩ := hat
    · exact step_xorb_waits hr hf (.inr hp) hcur hs
    · exact step_xorb_waits hr hf (.inl ⟨hp, not_or.mpr ⟨h0, h64⟩⟩) h64 hs
  · have issued : s.phase = .ready ∨ s.issuesXorb := by
      obtain hp | hp | ⟨hp, h0, h64⟩ := hat
      · exact .inl hp
      · exact .inr (.inr hp)
      · exact .inr (.inl ⟨hp, not_or.mpr ⟨h0, h64⟩⟩)
    obtain ⟨r, c, hstream, rfl⟩ := step_onlyTakes hready hr issued h
    exact ⟨(sameButStreams_taken r c s).sameRecord, rfl, ⟨rfl, rfl⟩, hstream⟩

/-- Settles O47: the reset event is the step, and it gives the reset state but for the streams. -/
theorem resetAbortsAtOnce : Obligations.ResetAbortsAtOnce := by
  unfold Obligations.ResetAbortsAtOnce
  exact fun s hr => ⟨s.resetEvent, step_of_reset hr,
    ⟨⟨rfl, rfl, rfl⟩, rfl, fun _ => rfl, rfl, rfl, rfl, rfl, rfl, rfl, rfl⟩, rfl, rfl, rfl, rfl⟩

/-! ## Byte strings that agree outside a span -/

/-- The two byte strings are the same before the span, which is its start and its length, and after it. -/
def AgreeOutside (span : Nat × Nat) (bs cs : List Byte) : Prop :=
  cs.take span.1 = bs.take span.1 ∧ cs.drop (span.1 + span.2) = bs.drop (span.1 + span.2)

theorem agreeOutside_of_eq {bs cs : List Byte} (h : cs = bs) (span : Nat × Nat) : AgreeOutside span bs cs :=
  h ▸ ⟨rfl, rfl⟩

theorem agreeOutside_zero_iff {m : Nat} {bs cs : List Byte} : AgreeOutside (0, m) bs cs ↔ cs.drop m = bs.drop m := by
  simp [AgreeOutside]

/-- What stands before the span heads both byte strings. -/
theorem AgreeOutside.same_head {head rest cs : List Byte} {p m : Nat} (h : AgreeOutside (p, m) (head ++ rest) cs)
    (hp : head.length = p) : ∃ rest', cs = head ++ rest' := by
  subst hp
  have taken : cs.take head.length = head := h.1.trans List.take_left
  exact ⟨cs.drop head.length, by conv_lhs => rw [← List.take_append_drop head.length cs, taken]⟩

/-! ## The command decoder on such strings (30_encoding.md R72 to R76) -/

/-- The three kinds of head that a command stream can have for `operandSpan`: no operands have begun, or the two lengths
of INIT have arrived, or the header of ENCRYPT or DECRYPT has. -/
theorem operandSpan_cases (bs : List Byte) :
    operandSpan bs = (0, 0) ∨
    (∃ klen nlen rest, bs = 0x01#8 :: klen :: nlen :: rest ∧ operandSpan bs = (3, klen.toNat + nlen.toNat + 4)) ∨
    ∃ op l0 l1 l2 l3 rest, (op = 0x02#8 ∨ op = 0x03#8) ∧ bs = op :: l0 :: l1 :: l2 :: l3 :: rest ∧
      operandSpan bs = (5, (le32 l0 l1 l2 l3).toNat) := by
  unfold operandSpan
  split
  case h_2 => exact .inl rfl
  case h_1 op b1 b2 rest =>
    split_ifs with hinit hcx
    · exact .inr (.inl ⟨b1, b2, rest, by simp [hinit], rfl⟩)
    · split
      · exact .inr (.inr ⟨op, b1, b2, _, _, _, hcx, rfl, rfl⟩)
      · exact .inl rfl
    · exact .inl rfl

theorem exists_four_heads {bs : List Byte} (h : 4 ≤ bs.length) :
    ∃ c0 c1 c2 c3 rest, bs = c0 :: c1 :: c2 :: c3 :: rest := by
  obtain _ | ⟨c0, _ | ⟨c1, _ | ⟨c2, _ | ⟨c3, rest⟩⟩⟩⟩ := bs
  case cons.cons.cons.cons => exact ⟨c0, c1, c2, c3, rest, rfl⟩
  all_goals simp at h

/-- Once the operands of INIT have arrived, the key and the nonce have the lengths given, whatever the operands are. -/
theorem decodeCommand_init_arrived {klen nlen : Byte} {body : List Byte}
    (h : klen.toNat + nlen.toNat + 4 ≤ body.length) :
    ∃ key nonce ctr, key.length = klen.toNat ∧ nonce.length = nlen.toNat ∧
      decodeCommand (0x01#8 :: klen :: nlen :: body) =
        .complete (.init key nonce ctr) (7 + klen.toNat + nlen.toNat) := by
  have hk : (body.take klen.toNat).length = klen.toNat := List.length_take_of_le (by omega)
  have hn : ((body.drop klen.toNat).take nlen.toNat).length = nlen.toNat :=
    List.length_take_of_le (by rw [List.length_drop]; omega)
  obtain ⟨c0, c1, c2, c3, rest, hdrop⟩ := exists_four_heads (bs := body.drop (klen.toNat + nlen.toNat))
    (by rw [List.length_drop]; omega)
  have fields := decodeCommand_init_fields hk hn c0 c1 c2 c3 rest
  rw [← hdrop, ← List.drop_drop, List.take_append_drop, List.take_append_drop] at fields
  exact ⟨_, _, _, hk, hn, fields⟩

theorem decodeCommand_init_missing {klen nlen : Byte} {body : List Byte}
    (h : body.length < klen.toNat + nlen.toNat + 4) :
    decodeCommand (0x01#8 :: klen :: nlen :: body) = .incomplete := by
  cases hd : decodeInit (klen :: nlen :: body) with
  | incomplete => exact hd
  | illegal op => exact absurd hd (decodeInit_ne_illegal _ op)
  | complete i len =>
    obtain ⟨klen', nlen', key, nonce, c0, c1, c2, c3, rest, hk, hn, hbytes, -, -⟩ := decodeInit_complete_fields hd
    obtain ⟨rfl, rfl, rfl⟩ : klen = klen' ∧ nlen = nlen' ∧ body = _ := by simpa using hbytes
    simp only [List.length_append, List.length_cons] at h
    omega

/-- Two readings that differ in the values of INIT's operands at most, and take `bs` and `cs` to the same bytes after
the command, its data included. -/
inductive SameRead (bs cs : List Byte) : CommandRead → CommandRead → Prop
  | incomplete : SameRead bs cs .incomplete .incomplete
  | illegal (op : Byte) (rest : cs.drop 1 = bs.drop 1) : SameRead bs cs (.illegal op) (.illegal op)
  | init (key key' nonce nonce' : List Byte) (ctr ctr' : Word) (len : Nat) (keyLength : key'.length = key.length)
      (nonceLength : nonce'.length = nonce.length) (rest : cs.drop len = bs.drop len) :
      SameRead bs cs (.complete (.init key nonce ctr) len) (.complete (.init key' nonce' ctr') len)
  | stream (i : Instr) (n : Word) (len : Nat) (names : i = .encrypt n ∨ i = .decrypt n)
      (rest : cs.drop (len + n.toNat) = bs.drop (len + n.toNat)) :
      SameRead bs cs (.complete i len) (.complete i len)

theorem SameRead.refl (bs : List Byte) : SameRead bs bs (decodeCommand bs) (decodeCommand bs) := by
  cases hd : decodeCommand bs with
  | incomplete => exact .incomplete
  | illegal op => exact .illegal op rfl
  | complete i len =>
    obtain ⟨key, nonce, ctr, rfl⟩ | ⟨n, rfl⟩ | ⟨n, rfl⟩ := decodeCommand_complete_cases hd
    · exact .init key key nonce nonce ctr ctr len rfl rfl rfl
    · exact .stream _ n len (.inl rfl) rfl
    · exact .stream _ n len (.inr rfl) rfl

/-- The decoder reads control from the bytes outside the operands only. -/
theorem sameRead_of_agreeOutside {bs cs : List Byte} (h : AgreeOutside (operandSpan bs) bs cs)
    (hlen : cs.length = bs.length) : SameRead bs cs (decodeCommand bs) (decodeCommand cs) := by
  obtain hspan | ⟨klen, nlen, body, rfl, hspan⟩ | ⟨op, l0, l1, l2, l3, data, hop, rfl, hspan⟩ :=
    operandSpan_cases bs
  · rw [hspan, agreeOutside_zero_iff, List.drop_zero, List.drop_zero] at h
    exact h ▸ .refl bs
  · rw [hspan] at h
    obtain ⟨body', rfl⟩ := h.same_head (head := [0x01#8, klen, nlen]) rfl
    simp only [List.cons_append, List.nil_append] at h hlen ⊢
    have hbody : body'.length = body.length := by simpa using hlen
    by_cases arrived : klen.toNat + nlen.toNat + 4 ≤ body.length
    · obtain ⟨key, nonce, ctr, hk, hn, hd⟩ := decodeCommand_init_arrived arrived
      obtain ⟨key', nonce', ctr', hk', hn', hd'⟩ := decodeCommand_init_arrived (hbody ▸ arrived)
      rw [hd, hd']
      refine .init _ _ _ _ _ _ _ (hk'.trans hk.symm) (hn'.trans hn.symm) ?_
      rw [show 7 + klen.toNat + nlen.toNat = 3 + (klen.toNat + nlen.toNat + 4) by omega]
      exact h.2
    · have missing := Nat.lt_of_not_le arrived
      rw [decodeCommand_init_missing missing, decodeCommand_init_missing (hbody ▸ missing)]
      exact .incomplete
  · rw [hspan] at h
    obtain ⟨data', rfl⟩ := h.same_head (head := [op, l0, l1, l2, l3]) rfl
    obtain rfl | rfl := hop
    · exact .stream _ _ 5 (.inl rfl) h.2
    · exact .stream _ _ 5 (.inr rfl) h.2

/-! ## What two states that agree on control share -/

section

variable {s t : State} (h : s.SameControl t)

include h

theorem State.SameControl.agreeOutside : AgreeOutside s.valueSpan s.stream t.stream := h.commands

theorem State.SameControl.length_stream : t.stream.length = s.stream.length := by
  rw [State.stream, State.stream, List.length_append, List.length_append, h.arrived.1, h.arrived.2]

theorem State.SameControl.cur_eq : t.cur = s.cur := h.position.1

theorem State.SameControl.initd_eq : t.initd = s.initd := h.position.2.1

theorem State.SameControl.phase_eq : t.phase = s.phase := h.position.2.2.1

theorem State.SameControl.resetLine_eq : t.resetLine = s.resetLine := h.inputs.2

theorem State.SameControl.context_eq : t.context = s.context := by
  obtain ⟨-, hbn, hbi⟩ := h.context
  unfold State.context
  rw [hbn, hbi]

theorem State.SameControl.controlFault_eq : t.controlFault = s.controlFault := by
  obtain ⟨hcur, -, hphase, hupc⟩ := h.position
  unfold State.controlFault
  rw [hcur, hphase, hupc, h.context_eq]

theorem State.SameControl.issuesXorb_iff : t.issuesXorb ↔ s.issuesXorb := by
  unfold State.issuesXorb
  rw [h.cur_eq, h.phase_eq]

theorem State.SameControl.sWritten_iff : t.sWritten ↔ s.sWritten :=
  forall_congr' fun i => by rw [h.sWritten i]

theorem State.SameControl.wWritten_iff : t.wWritten ↔ s.wWritten :=
  forall_congr' fun i => by rw [h.wWritten i]

theorem State.SameControl.w_eq_none_iff (i : Fin 16) : t.w[i] = none ↔ s.w[i] = none := by
  rw [← Option.not_isSome_iff_eq_none, ← Option.not_isSome_iff_eq_none, h.wWritten i]

end

/-! ## The bytes whose values do not matter -/

theorem valueSpan_ready {s : State} (hp : s.phase = .ready) : s.valueSpan = operandSpan s.stream := if_pos hp

theorem valueSpan_running {s : State} {n i : Word} (hp : s.phase ≠ .ready) (hn : s.bn = some n) (hi : s.bi = some i) :
    s.valueSpan = (0, n.toNat - i.toNat) := by
  rw [State.valueSpan, if_neg hp, hn, hi]

/-- While a command runs the span does not depend on the phase. -/
theorem valueSpan_congr_running {s t : State} (hs : s.phase ≠ .ready) (ht : t.phase ≠ .ready) (hbn : t.bn = s.bn)
    (hbi : t.bi = s.bi) : t.valueSpan = s.valueSpan := by
  rw [State.valueSpan, State.valueSpan, if_neg hs, if_neg ht, hbn, hbi]

/-! ## The operations keep the agreement -/

section

variable {s t : State}

theorem State.SameControl.send (h : s.SameControl t) (v v' : Byte) : (s.send v).SameControl (t.send v') :=
  { h with responses := by simp [h.responses] }

/-- Bytes moved to those taken. -/
theorem State.SameControl.taken (h : s.SameControl t) {r r' c c' : List Byte} (hs : r ++ c = s.stream)
    (ht : r' ++ c' = t.stream) (hlen : r'.length = r.length) : (s.taken r c).SameControl (t.taken r' c') where
  __ := h
  arrived := by
    have := h.length_stream
    rw [← hs, ← ht, List.length_append, List.length_append] at this
    exact ⟨hlen, by simp only [State.taken_cmd]; omega⟩
  commands := by
    have span : (s.taken r c).valueSpan = s.valueSpan := by
      have stream : (s.taken r c).stream = s.stream := hs
      simp only [State.valueSpan, stream, State.taken_phase, State.taken_bn, State.taken_bi]
    rw [span]
    change AgreeOutside _ (r ++ c) (r' ++ c')
    rw [hs, ht]
    exact h.agreeOutside

theorem State.SameControl.take (h : s.SameControl t) (len : Nat) : (s.take len).SameControl (t.take len) :=
  h.taken (List.take_append_drop _ _) (List.take_append_drop _ _) (by simp [h.length_stream])

/-- The end of a command where the bytes after it are the same. -/
theorem State.SameControl.consumed (h : s.SameControl t) (hcmd : t.cmd = s.cmd) :
    s.consumed.SameControl t.consumed where
  __ := h
  arrived := ⟨rfl, h.arrived.2⟩
  commands := agreeOutside_of_eq hcmd _

theorem State.SameControl.loadCipher (h : s.SameControl t) (key key' nonce nonce' : List Byte) (ctr ctr' : Word) :
    (s.loadCipher key nonce ctr).SameControl (t.loadCipher key' nonce' ctr') where
  __ := h
  sWritten i := by rw [sWritten_loadCipher key nonce ctr s i, sWritten_loadCipher key' nonce' ctr' t i]
  position := by
    obtain ⟨-, -, hphase, hupc⟩ := h.position
    exact ⟨rfl, rfl, hphase, hupc⟩

/-- An acceptance, after which the data bytes are those of the running command. -/
theorem State.SameControl.accept_consumed (h : s.SameControl t) (opcode : Byte) {n : Word}
    (hcmd : t.cmd.drop n.toNat = s.cmd.drop n.toNat) :
    (s.accept opcode n).consumed.SameControl (t.accept opcode n).consumed where
  __ := h
  position := by
    obtain ⟨hcur, hinitd, -, hupc⟩ := h.position
    exact ⟨hcur, hinitd, rfl, hupc⟩
  context := ⟨rfl, rfl, rfl⟩
  arrived := ⟨rfl, h.arrived.2⟩
  commands := by
    rw [valueSpan_running (n := n) (i := 0) (by simp) rfl rfl]
    exact agreeOutside_zero_iff.mpr hcmd

theorem State.SameControl.regenStart (h : s.SameControl t) (hp : s.phase ≠ .ready) :
    s.regenStart.SameControl t.regenStart where
  __ := h
  position := by
    obtain ⟨hcur, hinitd, -, -⟩ := h.position
    exact ⟨hcur, hinitd, rfl, rfl⟩
  commands := by
    rw [valueSpan_congr_running (s := s) (t := s.regenStart) hp (by simp) rfl rfl]
    exact h.commands

theorem State.SameControl.clearCur_regenEnd (h : s.SameControl t) (hp : s.phase ≠ .ready) :
    s.clearCur.regenEnd.SameControl t.clearCur.regenEnd where
  __ := h
  position := by
    obtain ⟨-, hinitd, -, -⟩ := h.position
    exact ⟨rfl, hinitd, rfl, rfl⟩
  commands := by
    rw [valueSpan_congr_running (s := s) (t := s.clearCur.regenEnd) hp (by simp) rfl rfl]
    exact h.commands

theorem State.SameControl.upcNext (h : s.SameControl t) : s.upcNext.SameControl t.upcNext where
  __ := h
  position := by
    obtain ⟨hcur, hinitd, hphase, hupc⟩ := h.position
    exact ⟨hcur, hinitd, hphase, congrArg (· + 1) hupc⟩

theorem State.SameControl.writeW (h : s.SameControl t) {f g : Vector (Option Word) 16}
    (hw : ∀ i : Fin 16, (g[i]).isSome = (f[i]).isSome) : (s.writeW f).SameControl (t.writeW g) :=
  { h with wWritten := hw }

theorem State.SameControl.writeW_written (h : s.SameControl t) (x y : Vector Word 16) :
    (s.writeW (written x)).SameControl (t.writeW (written y)) :=
  h.writeW fun i => by simp

theorem memRead_serialize_isSome (m : Memory) (x : Vector Word 16) (j : Nat) :
    (memRead (serialize m x) j).isSome = decide (j < 64) := by
  by_cases hj : j < 64
  · simp [memRead_serialize m x ⟨j, hj⟩, hj]
  · simp [memRead_outside _ _ (Nat.le_of_not_lt hj), hj]

theorem State.SameControl.writeKs_serialize (h : s.SameControl t) (x y : Vector Word 16) :
    (s.writeKs (serialize s.ks x)).SameControl (t.writeKs (serialize t.ks y)) :=
  { h with
    ksWritten := fun j => by
      rw [State.writeKs_ks, State.writeKs_ks, memRead_serialize_isSome, memRead_serialize_isSome] }

theorem readS_writeCtr (c : Word) (s : State) (i : Fin 16) :
    (s.writeCtr c).readS i = if i = 12 then some c else s.readS i := by
  fin_cases i <;> rfl

theorem State.SameControl.writeCtr (h : s.SameControl t) (c c' : Word) :
    (s.writeCtr c).SameControl (t.writeCtr c') where
  __ := h
  sWritten i := by
    rw [readS_writeCtr, readS_writeCtr]
    split_ifs
    · rfl
    · exact h.sWritten i

/-- XORB on one data byte; after the last one READY decodes what follows, which is the same. -/
theorem State.SameControl.xorbDone (h : s.SameControl t) (hp : s.phase ≠ .ready) {n i : Word} (hn : s.bn = some n)
    (hi : s.bi = some i) (hlt : i < n) {d d' : Byte} {rest rest' : List Byte} (hs : s.stream = d :: rest)
    (ht : t.stream = d' :: rest') : (s.xorbDone n i rest).SameControl (t.xorbDone n i rest') where
  __ := h
  position := by
    obtain ⟨hcur, hinitd, -, hupc⟩ := h.position
    exact ⟨congrArg (· + 1) hcur, hinitd, rfl, hupc⟩
  context := by
    obtain ⟨hop, hbn, -⟩ := h.context
    exact ⟨hop, hbn, rfl⟩
  arrived := by
    have := h.length_stream
    rw [hs, ht, List.length_cons, List.length_cons] at this
    exact ⟨rfl, Nat.succ.inj this⟩
  commands := by
    obtain ⟨m, hm⟩ : ∃ m, n.toNat - i.toNat = m + 1 := ⟨n.toNat - i.toNat - 1, by bv_omega⟩
    have after : rest'.drop m = rest.drop m := by
      have span := h.agreeOutside
      rwa [valueSpan_running hp hn hi, agreeOutside_zero_iff, hs, ht, hm] at span
    by_cases last : i + 1 = n
    · obtain rfl : m = 0 := by bv_omega
      exact agreeOutside_of_eq after _
    · have running : (s.xorbDone n i rest).phase ≠ .ready := by
        rw [State.xorbDone_phase, if_neg last]
        decide
      rw [valueSpan_running (n := n) (i := i + 1) running hn rfl, show n.toNat - (i + 1).toNat = m by bv_omega]
      exact agreeOutside_zero_iff.mpr after

theorem State.SameControl.resetEvent (h : s.SameControl t) (hcmd : t.cmd = s.cmd) :
    s.resetEvent.SameControl t.resetEvent where
  sWritten _ := rfl
  wWritten _ := rfl
  ksWritten _ := rfl
  position := ⟨rfl, rfl, rfl, rfl⟩
  context := ⟨rfl, rfl, rfl⟩
  arrived := ⟨rfl, h.arrived.2⟩
  commands := agreeOutside_of_eq hcmd _
  responses := h.responses
  inputs := ⟨h.inputs.1, rfl⟩

end

/-! ## The instructions keep the agreement -/

theorem qrMicro_of_written {a b c d : Fin 16} {s : State}
    (h : ¬ (s.w[a] = none ∨ s.w[b] = none ∨ s.w[c] = none ∨ s.w[d] = none)) :
    ∃ r, qrMicro a b c d s = .next (s.writeW (setFour s.w a b c d r)).upcNext := by
  simp only [not_or, ← ne_eq, Option.ne_none_iff_exists'] at h
  obtain ⟨⟨wa, ha⟩, ⟨wb, hb⟩, ⟨wc, hc⟩, wd, hd⟩ := h
  exact ⟨_, qrMicro_eq a b c d s wa wb wc wd ha hb hc hd⟩

/-- The same words are written after a write of four. -/
theorem setFour_isSome_congr {f g : Vector (Option Word) 16} (h : ∀ i : Fin 16, (g[i]).isSome = (f[i]).isSome)
    (a b c d : Fin 16) (r r' : Word × Word × Word × Word) (i : Fin 16) :
    ((setFour g a b c d r')[i]).isSome = ((setFour f a b c d r)[i]).isSome := by
  rw [setFour_getElem, setFour_getElem]
  split_ifs
  case neg => exact h i
  all_goals rfl

section

variable {s t : State} (h : s.SameControl t)

include h

theorem sameOutcome_respond {done done' : State} (hdone : done.SameControl done') (v v' : Byte) :
    sameOutcome (respond v s done) (respond v' t done') := by
  rw [respond_eq, respond_eq, h.inputs.1]
  split_ifs
  · exact hdone.send v v'
  · exact h

theorem sameOutcome_raise (e : ErrorKind) (hcmd : t.cmd = s.cmd) : sameOutcome (raise e s) (raise e t) :=
  sameOutcome_respond h (h.consumed hcmd) _ _

theorem sameOutcome_execInit {key key' nonce nonce' : List Byte} (hk : key'.length = key.length)
    (hn : nonce'.length = nonce.length) (ctr ctr' : Word) (hcmd : t.cmd = s.cmd) :
    sameOutcome (execInit key nonce ctr s) (execInit key' nonce' ctr' t) := by
  unfold execInit
  rw [hk, hn]
  split_ifs
  · exact sameOutcome_raise h _ hcmd
  · exact sameOutcome_respond h ((h.loadCipher _ _ _ _ _ _).consumed hcmd) _ _

theorem sameOutcome_discardThenRaise {n : Nat} (e : ErrorKind) (hcmd : t.cmd.drop n = s.cmd.drop n) :
    sameOutcome (discardThenRaise n e s) (discardThenRaise n e t) := by
  unfold discardThenRaise
  obtain ⟨hrx, hlen⟩ := h.arrived
  rw [hlen]
  split_ifs
  · exact h.taken (List.append_nil _) (List.append_nil _) (by simp [hrx, hlen])
  · have discarded := h.taken (rx_append_take_append_drop n s) (rx_append_take_append_drop n t) (by simp [hrx, hlen])
    exact sameOutcome_raise discarded e hcmd

theorem sameOutcome_streamCommand (opcode : Byte) {n : Word} (hcmd : t.cmd.drop n.toNat = s.cmd.drop n.toNat) :
    sameOutcome (streamCommand opcode n s) (streamCommand opcode n t) := by
  unfold streamCommand
  rw [h.initd_eq]
  split_ifs with hinit hn
  · exact sameOutcome_discardThenRaise h _ hcmd
  · exact sameOutcome_raise h _ (by simpa [hn] using hcmd)
  · exact sameOutcome_respond h (h.accept_consumed opcode hcmd) _ _

theorem sameOutcome_qrMicro (a b c d : Fin 16) : sameOutcome (qrMicro a b c d s) (qrMicro a b c d t) := by
  have same : (t.w[a] = none ∨ t.w[b] = none ∨ t.w[c] = none ∨ t.w[d] = none) ↔
      (s.w[a] = none ∨ s.w[b] = none ∨ s.w[c] = none ∨ s.w[d] = none) :=
    or_congr (h.w_eq_none_iff a) (or_congr (h.w_eq_none_iff b) (or_congr (h.w_eq_none_iff c) (h.w_eq_none_iff d)))
  by_cases unwritten : s.w[a] = none ∨ s.w[b] = none ∨ s.w[c] = none ∨ s.w[d] = none
  · rw [qrMicro_unwritten a b c d unwritten, qrMicro_unwritten a b c d (same.mpr unwritten)]
    rfl
  · obtain ⟨r, hs⟩ := qrMicro_of_written unwritten
    obtain ⟨r', ht⟩ := qrMicro_of_written (mt same.mp unwritten)
    rw [hs, ht]
    exact (h.writeW (setFour_isSome_congr h.wWritten a b c d r r')).upcNext

theorem sameOutcome_execLdw : sameOutcome (execLdw s) (execLdw t) := by
  by_cases hs : s.sWritten
  · obtain ⟨x, hx, -⟩ := sFile_of_sWritten hs
    obtain ⟨y, hy, -⟩ := sFile_of_sWritten (h.sWritten_iff.mpr hs)
    rw [execLdw_eq s x hx, execLdw_eq t y hy]
    exact (h.writeW_written x y).upcNext
  · rw [execLdw_unwritten hs, execLdw_unwritten (mt h.sWritten_iff.mp hs)]
    rfl

theorem sameOutcome_execFfadd : sameOutcome (execFfadd s) (execFfadd t) := by
  by_cases hw : s.wWritten
  · have hw' := h.wWritten_iff.mpr hw
    by_cases hs : s.sWritten
    · obtain ⟨x, hx, -⟩ := w_of_wWritten hw
      obtain ⟨x', hx', -⟩ := w_of_wWritten hw'
      obtain ⟨y, hy, -⟩ := sFile_of_sWritten hs
      obtain ⟨y', hy', -⟩ := sFile_of_sWritten (h.sWritten_iff.mpr hs)
      rw [execFfadd_eq s x y hx hy, execFfadd_eq t x' y' hx' hy']
      exact (h.writeW_written _ _).upcNext
    · rw [execFfadd_unwritten_s hw hs, execFfadd_unwritten_s hw' (mt h.sWritten_iff.mp hs)]
      rfl
  · rw [execFfadd_unwritten_w hw, execFfadd_unwritten_w (mt h.wWritten_iff.mp hw)]
    rfl

theorem sameOutcome_execSer : sameOutcome (execSer s) (execSer t) := by
  by_cases hw : s.wWritten
  · obtain ⟨x, hx, -⟩ := w_of_wWritten hw
    obtain ⟨y, hy, -⟩ := w_of_wWritten (h.wWritten_iff.mpr hw)
    rw [execSer_eq s x hx, execSer_eq t y hy]
    exact (h.writeKs_serialize x y).upcNext
  · rw [execSer_unwritten hw, execSer_unwritten (mt h.wWritten_iff.mp hw)]
    rfl

theorem sameOutcome_execCtrinc : sameOutcome (execCtrinc s) (execCtrinc t) := by
  have counter := h.sWritten 12
  rw [readS_ctr, readS_ctr] at counter
  cases hs : s.ctr with
  | none =>
    rw [hs, Option.isSome_none, Option.isSome_eq_false_iff, Option.isNone_iff_eq_none] at counter
    rw [execCtrinc_unwritten hs, execCtrinc_unwritten counter]
    rfl
  | some c =>
    rw [hs, Option.isSome_some, Option.isSome_iff_exists] at counter
    obtain ⟨c', ht⟩ := counter
    rw [execCtrinc_eq s c hs, execCtrinc_eq t c' ht]
    exact (h.writeCtr _ _).upcNext

/-- XORB with a data byte asks of KS only whether the byte at CUR is written. -/
theorem sameOutcome_execXorb_data (hp : s.phase ≠ .ready) {n i : Word} (hc : s.context = .ok (n, i))
    (low : s.cur ≤ 63#7) {d d' : Byte} {rest rest' : List Byte} (hs : s.stream = d :: rest)
    (ht : t.stream = d' :: rest') : sameOutcome (execXorb s) (execXorb t) := by
  have hcur := h.cur_eq
  have hc' := h.context_eq.trans hc
  have low' : t.cur ≤ 63#7 := hcur ▸ low
  have byte := h.ksWritten s.cur.toNat
  cases hk : memRead s.ks s.cur.toNat with
  | none =>
    rw [hk, Option.isSome_none, Option.isSome_eq_false_iff, Option.isNone_iff_eq_none, ← hcur] at byte
    rw [execXorb_unwritten_ks hc low hs hk, execXorb_unwritten_ks hc' low' ht byte]
    rfl
  | some k =>
    rw [hk, Option.isSome_some, Option.isSome_iff_exists, ← hcur] at byte
    obtain ⟨k', hk'⟩ := byte
    obtain ⟨hn, hi, hlt⟩ := (context_ok s n i).mp hc
    have waiting : (s.taken [d] rest).SameControl (t.taken [d'] rest') := h.taken hs.symm ht.symm rfl
    rw [execXorb_eq s n i d k rest hc low hs hk, execXorb_eq t n i d' k' rest' hc' low' ht hk']
    exact sameOutcome_respond waiting (h.xorbDone hp hn hi hlt hs ht) _ _

/-- XORB asks of the stream only whether a byte is there. -/
theorem sameOutcome_execXorb (hp : s.phase ≠ .ready) : sameOutcome (execXorb s) (execXorb t) := by
  have hcur := h.cur_eq
  cases hc : s.context with
  | error f =>
    simp only [execXorb, h.context_eq, hc]
    rfl
  | ok p =>
    obtain ⟨n, i⟩ := p
    have hc' := h.context_eq.trans hc
    by_cases high : 63#7 < s.cur
    · rw [execXorb_cursor_out_of_range hc high, execXorb_cursor_out_of_range hc' (hcur ▸ high)]
      rfl
    have low : s.cur ≤ 63#7 := BitVec.not_lt.mp high
    cases hs : s.stream with
    | nil =>
      have ht : t.stream = [] := List.length_eq_zero_iff.mp (h.length_stream.trans (congrArg List.length hs))
      have waits : execXorb s = .next s := exec_xorb_waits hc low hs
      have waits' : execXorb t = .next t := exec_xorb_waits hc' (hcur ▸ low) ht
      rw [waits, waits']
      exact h
    | cons d rest =>
      obtain ⟨d', rest', ht⟩ :=
        List.exists_cons_of_length_eq_add_one (h.length_stream.trans (congrArg List.length hs))
      exact sameOutcome_execXorb_data h hp hc low hs ht

/-- The micro-op at UPC in REGEN. -/
theorem sameOutcome_exec_micro (hp : s.phase = .regen) {u : Nat} {code : Byte} {i : Instr} (hc : rom[u]? = some code)
    (hd : decodeMicro code = .op i) : sameOutcome (exec i s) (exec i t) := by
  obtain ⟨-, rfl⟩ | ⟨-, -, hi⟩ | ⟨-, rfl⟩ | ⟨-, rfl⟩ | ⟨-, rfl⟩ | ⟨-, rfl⟩ := rom_cases hc hd
  · exact sameOutcome_execLdw h
  · obtain ⟨a, b, c, d, he⟩ := exec_qrOps hi
    rw [he, he]
    exact sameOutcome_qrMicro h a b c d
  · exact sameOutcome_execFfadd h
  · exact sameOutcome_execSer h
  · exact sameOutcome_execCtrinc h
  · exact h.clearCur_regenEnd (by simp [hp])

end

/-! ## The step keeps the agreement -/

section

variable {s t : State} (h : s.SameControl t) (hr : s.resetLine = false) (hf : s.controlFault = none)

include h hr hf

/-- In READY the two streams are read alike, and what stands after the command is the same. -/
theorem sameOutcome_step_ready (hp : s.phase = .ready) : sameOutcome (step s) (step t) := by
  have hr' : t.resetLine = false := h.resetLine_eq.trans hr
  have hf' : t.controlFault = none := h.controlFault_eq.trans hf
  have hp' : t.phase = .ready := h.phase_eq.trans hp
  have read := sameRead_of_agreeOutside (valueSpan_ready hp ▸ h.agreeOutside) h.length_stream
  generalize hd : decodeCommand s.stream = r at read
  generalize hd' : decodeCommand t.stream = r' at read
  cases read with
  | incomplete =>
    rw [step_ready_incomplete hr hf hp hd, step_ready_incomplete hr' hf' hp' hd', h.length_stream]
    exact h.take _
  | illegal op rest =>
    rw [step_ready_illegal hr hf hp hd, step_ready_illegal hr' hf' hp' hd']
    exact sameOutcome_raise (h.take 1) _ rest
  | init key key' nonce nonce' ctr ctr' len keyLength nonceLength rest =>
    rw [stepRunsDecodedCommand s _ len hr hf hp hd, stepRunsDecodedCommand t _ len hr' hf' hp' hd']
    exact sameOutcome_execInit (h.take len) keyLength nonceLength ctr ctr' rest
  | stream i n len names rest =>
    rw [stepRunsDecodedCommand s i len hr hf hp hd, stepRunsDecodedCommand t i len hr' hf' hp' hd']
    have data : (t.take len).cmd.drop n.toNat = (s.take len).cmd.drop n.toNat := by
      rw [State.take_cmd, State.take_cmd, List.drop_drop, List.drop_drop, rest]
    obtain rfl | rfl := names
    · exact sameOutcome_streamCommand (h.take len) 0x02#8 data
    · exact sameOutcome_streamCommand (h.take len) 0x03#8 data

theorem sameOutcome_step_issuesXorb (hx : s.issuesXorb) : sameOutcome (step s) (step t) := by
  have hp : s.phase ≠ .ready := by rcases hx.phase with hp | hp <;> simp [hp]
  rw [step_issuesXorb hr hf hx,
    step_issuesXorb (h.resetLine_eq.trans hr) (h.controlFault_eq.trans hf) (h.issuesXorb_iff.mpr hx)]
  exact sameOutcome_execXorb h hp

theorem sameOutcome_step : sameOutcome (step s) (step t) := by
  have hr' : t.resetLine = false := h.resetLine_eq.trans hr
  have hf' : t.controlFault = none := h.controlFault_eq.trans hf
  obtain ⟨hcur, -, hphase, hupc⟩ := h.position
  cases hp : s.phase with
  | ready => exact sameOutcome_step_ready h hr hf hp
  | loop =>
    by_cases fires : s.cur = 0#7 ∨ s.cur = 64#7
    · rw [step_loop_fires hr hf hp fires, step_loop_fires hr' hf' (hphase.trans hp) (hcur ▸ fires)]
      exact h.regenStart (by simp [hp])
    · exact sameOutcome_step_issuesXorb h hr hf (.inl ⟨hp, fires⟩)
  | regen =>
    obtain ⟨-, inside, -⟩ := (controlFault_none s).mp hf
    obtain ⟨code, i, hc, hd⟩ := rom_decodes (u := s.upc.toNat) (by bv_omega)
    rw [step_regen hr hf hp hc hd, step_regen hr' hf' (hphase.trans hp) (hupc ▸ hc) hd]
    exact sameOutcome_exec_micro h hp hc hd
  | xfer => exact sameOutcome_step_issuesXorb h hr hf (.inr hp)

end

/-- Settles O53: the reset event reads no data, a model fault shows in control alone, and every other step keeps the
agreement. -/
theorem controlIsIndependentOfData : Obligations.ControlIsIndependentOfData := by
  unfold Obligations.ControlIsIndependentOfData
  intro s t h hcmd
  cases hr : s.resetLine with
  | true =>
    rw [step_of_reset hr, step_of_reset (h.resetLine_eq.trans hr)]
    exact h.resetEvent (hcmd hr)
  | false =>
    cases hf : s.controlFault with
    | none => exact sameOutcome_step h hr hf
    | some f =>
      rw [step_of_controlFault hr hf, step_of_controlFault (h.resetLine_eq.trans hr) (h.controlFault_eq.trans hf)]
      rfl

end Sys2Proof.Machine

/-! SUPPORT. The words that 95_test_vectors.md L2.7 writes out, read by the decoder's laws of their formats. -/

namespace Sys2Proof.Machine

/-- Settles O12: each word is an instance of the law of its format, with `le32` of its bytes evaluated. -/
theorem writtenOutWordsDecode : Obligations.WrittenOutWordsDecode := by
  unfold Obligations.WrittenOutWordsDecode
  have encrypt4 : le32 0x04#8 0x00#8 0x00#8 0x00#8 = 4 := by decide
  have decrypt300 : le32 0x2c#8 0x01#8 0x00#8 0x00#8 = 300 := by decide
  have counter : le32 0x01#8 0x02#8 0x03#8 0x04#8 = 0x04030201#32 := by decide
  refine ⟨?_, ?_, ?_, (illegalOpcodes 0x80#8 []).mpr (by decide), decodeMicro_code .qrD2 rfl, decodeMicro_code .ser rfl⟩
  · rw [decodeCommand_encrypt_fields, encrypt4]
  · rw [decodeCommand_decrypt_fields, decrypt300]
  · rw [← counter]
    exact decodeCommand_init_fields (key := [0xaa#8, 0xbb#8]) (nonce := [0xcc#8]) rfl rfl 0x01#8 0x02#8 0x03#8 0x04#8 []

end Sys2Proof.Machine
